-- ==== Sys2Proof/Word.lean ====
section
/-! DEFINITION. The bit vectors that the desk line and the command port carry (R23, R203, R204). -/

namespace Sys2Proof

/-- One byte of a frame's payload or of a command-port record. -/
abbrev Byte := BitVec 8

/-- A two-byte field (R203, R204). -/
abbrev Half := BitVec 16

/-- A three-byte field: a stamp, a close point, a round-clock value (R203, R204). -/
abbrev Triple := BitVec 24

/-- The six cells of the sender desk (R23). -/
abbrev Desk := BitVec 6

end Sys2Proof
end

