-- ==== Sys2Proof/Config.lean ====
section
/-! DEFINITION. What the spec fixes as numbers, and the free values: what it leaves open. -/

namespace Sys2Proof.Config

/-- The most the round clock counts, in ticks (R55, R57). -/
def clockMax : Nat := 16777215

/-- Limits of a team total (R137, R139). -/
def totalMax : Int := 9999

/-- Attempts after which a frame is dropped (R43). -/
def maxAttempts : Nat := 4

/-- Records the fault log holds (R52). -/
def faultLogSize : Nat := 4

/-- Turns a BUZZ round holds (R91). -/
def maxTurn : Nat := 16

/-- Where a count saturates (R121, R137). -/
def countMax : Nat := 255

/-! Lengths of the timers, in microseconds. -/

/-- The quiet wait of JOINING, 5 ms (R10). -/
def joinWaitUs : Nat := 5000
/-- A store write, 8 ms (R9). -/
def storeWriteUs : Nat := 8000
/-- The recovery deadline, 200 ms (R44). -/
def recoveryDeadlineUs : Nat := 200000
/-- The recovery quiet time, 10 ms (R45). -/
def recoveryQuietUs : Nat := 10000
/-- The fault memory, 1 s (R46). -/
def faultMemoryUs : Nat := 1000000
/-- A display update, 200 microseconds (R177). -/
def displayUpdateUs : Nat := 200
/-- The dropped-frame flash, 2 s (R184). -/
def flashUs : Nat := 2000000

/-! Lengths on the desk line, in nanoseconds. -/

/-- The sender's start mark (R20). -/
def startMarkNs : Nat := 16000
/-- The pulse that sends a 1 (R17). -/
def oneNs : Nat := 2000
/-- The pulse that sends a 0, and the drive of an ack, an objection and an objection run (R17, R29 to R31). -/
def zeroNs : Nat := 6000
/-- The length of a cell: a start mark is two of them, the line is idle after ten (R19, R20). -/
def cellNs : Nat := 8000
/-- An edge this long after a boundary, or earlier, opens no cell (R17, R18). -/
def earlyEdgeNs : Nat := 7000
/-- The latest edge that opens the next cell (R17, R18). -/
def lateEdgeNs : Nat := 9000

/-! The free value. It has no body, so no proof can see what it is. It is applied to the counter `State.free`, which a step
that uses it advances. -/

/-- FREE VALUE (log 11). The bits of a reply record that its layout does not name (R204): first argument the place in
the record, second the counter. -/
opaque unnamedBits : Nat → Nat → Byte

end Sys2Proof.Config
end

