-- ==== Sys2Proof/Syntax.lean ====
section
/-! DEFINITION. The steps of the KD416, one constructor per row of spec/opcode_table.json, and the operands they carry. -/

namespace Sys2Proof

/-- The five desk inputs (04, Input filtering). -/
inductive DeskInput where
  | buzz | keyA | keyB | keyC | keyD
  deriving DecidableEq, Repr

/-- What the line shows in one cell, measured from its boundary (R17, R18). -/
inductive CellPulse where
  /-- no dominant edge within 9.0 µs of the previous boundary -/
  | missing
  /-- a dominant edge 7.0 µs or less after the boundary, the cell being recessive -/
  | earlyEdge
  /-- a dominant pulse of this many nanoseconds from the boundary -/
  | pulse (ns : Nat)
  deriving DecidableEq, Repr

/-- A change of the line's level, and for how many nanoseconds the line stood at the level it leaves (R19; log 39). -/
inductive LevelChange where
  | toDominant (after : Nat)
  | toRecessive (after : Nat)
  deriving DecidableEq, Repr

/-- The nineteen-byte parameter block of OPEN and OPEN_ROUND, each field in the width it is carried in (R203). -/
structure OpenBlock where
  flags : Byte
  armDelay : Byte
  jumpLock : Byte
  settle : Byte
  answerTime : Half
  window : Half
  v : Half
  w : Half
  b : Half
  p : Byte
  levels : BitVec 32
  deriving DecidableEq, Repr

/-- The payloads of the eleven frame classes (R25, R203). -/
inductive Payload where
  | close (point : Triple)
  | verdict (turn team outcome : Byte) (check : Half)
  | pass (turn team : Byte)
  | claim (stamp : Triple) (team : Byte)
  | choice (stamp : Triple) (key team : Byte)
  | tally (page : Byte) (total1 total2 total3 total4 : Half)
  | reveal (key : Byte)
  | open_ (block : OpenBlock)
  | roll (id window : Byte)
  | present (role team id flags : Byte)
  | hello (role team : Byte) (tag : Half)
  deriving DecidableEq, Repr

/-- A frame of the desk line: its sender desk, its round number and its payload, which fixes class and length (R23, R25). -/
structure Frame where
  desk : Desk
  round : Byte
  body : Payload
  deriving DecidableEq, Repr

/-- One step of the part: one constructor per row of spec/opcode_table.json, in the order of the table. A reset carries
the levels of the role straps it samples (`true` is high); a taking carries the frame's sender desk, round number
and payload fields; a change of the line carries the level it takes and how many nanoseconds the line stood at the other;
a command carries its argument bytes (R203, R204). -/
inductive Instr where
  -- resets and start-up
  | powerOnReset (role1 role0 : Bool)
  | resetN (role1 role0 : Bool)
  | loadingReadEnd
  | joiningIdleWaitEnd
  | storeWriteEnd
  -- the line and the station's own attempts; a cell is numbered from 0 at the first contention cell
  | lineIdle
  | arbitrationLost (cell : Nat)
  | arbitrationWon
  | bitMismatch (cell : Nat) (pulse : CellPulse)
  | slotsReached
  | frameDiscarded (cells : List CellPulse) (ack objection : CellPulse)
  | lineFault
  | recoveryQuietEnd
  | recoveryDeadline
  | faultMemoryExpiry
  -- takings
  | openTaken (desk : Desk) (round : Byte) (block : OpenBlock)
  | closeTaken (desk : Desk) (round : Byte) (point : Triple)
  | verdictTaken (desk : Desk) (round turn team outcome : Byte) (check : Half)
  | passTaken (desk : Desk) (round turn team : Byte)
  | claimTaken (desk : Desk) (round : Byte) (stamp : Triple) (team : Byte)
  | choiceTaken (desk : Desk) (round : Byte) (stamp : Triple) (key team : Byte)
  | tallyTaken (desk : Desk) (round page : Byte) (total1 total2 total3 total4 : Half)
  | revealTaken (desk : Desk) (round key : Byte)
  | rollTaken (desk : Desk) (round id window : Byte)
  | presentTaken (desk : Desk) (round role team id flags : Byte)
  | helloTaken (desk : Desk) (round role team : Byte) (tag : Half)
  -- the round's clock and timers
  | roundClockTick
  | armReached
  | windowEnd
  | roundClockSaturation
  | settleDeadline
  | settleOut
  | answerClockStep
  | answerClockExpiry
  -- the desk inputs
  | inputFallingEdge (input : DeskInput)
  | inputRisingEdge (input : DeskInput)
  | pressAccepted (input : DeskInput)
  | releaseAccepted (input : DeskInput)
  | passHoldEnd
  -- the panel, and the console's roll window
  | jumpLockEnd
  | droppedFrameFlashEnd
  | blinkBaseHalfPeriod
  | displayUpdateEnd
  | rollWindowExpiry
  -- the command port
  | transferStart
  | unknownCommand (code : Byte) (args : List Byte)
  | nop
  | status
  | readScores
  | readClaims
  | readChoices
  | readPresence
  | readRollReport
  | readFaults
  | clearFaults
  | readEvents
  | clearEvents (flags : Half)
  | setEventMask (flags : Half)
  | storeRead (row : Byte)
  | storeWrite (row : Byte) (value : Half) (setup : Bool)
  | restart (role1 role0 : Bool)
  -- the console commands
  | openRound (block : OpenBlock)
  | closeRound
  | verdictCommand (outcome expected : Byte)
  | revealCommand (key : Byte)
  | setTotal (team : Byte) (value : Half)
  | adjust (team : Byte) (delta : Half)
  | sendTally
  | rollCall (window : Byte)
  | clearRollReport
  -- further line and port events
  | lineLevelChange (change : LevelChange)
  | startMarkRecognized
  | objectionRunBegun (cells : List CellPulse)
  | transferEndNoCommand
  deriving DecidableEq, Repr

end Sys2Proof
end

