-- ==== Sys2Proof/Machine/State.lean ====
section
/-! DEFINITION. The state of one KD416: every register, queue, timer, flag and pin the spec gives its fourteen blocks, as
plain data, and the queue of the commands that are waiting. -/

namespace Sys2Proof.Machine

/-- Reasons a step stops. The spec names none: line faults, HALTED, MUTED and CONFIG_FAULT are states the part goes on in. -/
inductive Fault where
  deriving DecidableEq, Repr

/-- Reasons a step has no meaning. -/
inductive Refusal where
  /-- Raised by `exec` alone, for a row that has no meaning yet. Safe: the machine stops. No arm of this model raises it. -/
  | notModelled (mnemonic : String)
  deriving DecidableEq, Repr

/-- A timer that ends by a row of the table: off, or running for the length it was started with, in microseconds. -/
inductive Timer where
  | off
  | running (us : Nat)
  deriving DecidableEq, Repr

/-- Is the timer running? -/
def Timer.on : Timer → Bool
  | .off => false
  | .running _ => true

/-! ### Start-up unit and settings store (01) -/

/-- The roles (R1, R2). -/
inductive Role where
  | none | team | console | wall
  deriving DecidableEq, Repr

/-- The config-fault reasons (R2, R3). -/
inductive FaultReason where
  | none | badRole | badDesk | badTeam
  deriving DecidableEq, Repr

/-- The idle display option (R2, R4). -/
inductive IdleDisplay where
  | total | rank
  deriving DecidableEq, Repr

/-- The start-up states (R5 to R12). The muted marker is a field beside them. -/
inductive StartUp where
  | loading | configFault | joining | joined
  deriving DecidableEq, Repr

/-- The identity record (R2). -/
structure Identity where
  role : Role
  desk : Nat
  team : Nat
  tag : Half
  filterMs : Nat
  /-- pass-hold time in tenths of a second -/
  passHold : Nat
  idleDisplay : IdleDisplay
  blink : Bool
  reason : FaultReason
  deriving DecidableEq, Repr

/-- The start-up unit. -/
structure Suu where
  startUp : StartUp
  identity : Identity
  muted : Bool
  /-- the levels of ROLE1 and ROLE0 at the last entry to LOADING (R1) -/
  strap1 : Bool
  strap0 : Bool
  joinWait : Timer
  deriving DecidableEq, Repr

/-- The settings store (R5, R7 to R9). -/
structure Sto where
  row0 : Half
  row1 : Half
  row2 : Half
  row3 : Half
  busy : Bool
  write : Option (Nat × Half)
  timer : Timer
  deriving DecidableEq, Repr

/-! ### Line interface (02) -/

/-- The decode states (R19 to R31). -/
inductive Decode where
  | hunt | frame | tail
  deriving DecidableEq, Repr

/-- The readings of a cell (R18). A missing cell is a width error of its own kind (R30). -/
inductive CellReading where
  | zero | one | widthError | missing
  deriving DecidableEq, Repr

/-- The line interface. -/
structure Lif where
  decode : Decode
  idleSeen : Bool
  /-- the level on LRX: true while the line is dominant -/
  dominant : Bool
  /-- the present dominant period has already given its line fault (R21) -/
  faultFound : Bool
  /-- the objection run (R30) -/
  run : Bool
  /-- the cells of the frame read so far, first contention cell first, as far as the rows report them (log 9) -/
  cells : List CellReading
  /-- the present dominant pulse is that of a cell not yet read, or one that an objection run answers (R17, R30) -/
  opened : Bool
  /-- nanoseconds from the last cell's boundary to the line's last change (R17, R18) -/
  since : Nat
  /-- the reading of the ack slot, once it has been read (R29) -/
  ack : Option CellReading
  /-- the line's dominant edge is no more than 1.0 µs old (R26; R40 says less than 1.0 µs, log 10) -/
  edgeNew : Bool
  deriving DecidableEq, Repr

/-! ### Line controller (03) -/

/-- The transmitter states (R41, R44, R49, R50). -/
inductive TxState where
  | idle | waiting | contending | sending | slots | recovering | halted | muted
  deriving DecidableEq, Repr

/-- The places of the transmit queue, in class order, the TALLY pages in page order (R35). -/
inductive Place where
  | close | verdict | pass | claim | choice
  | tally (page : Fin 4)
  | reveal | open_ | roll | present | hello
  deriving DecidableEq, Repr

/-- The blocks that hand frames over (R35). -/
inductive Hander where
  | icu | cnf | prs | suu
  deriving DecidableEq, Repr

/-- The outcomes of a turn (R87, R203). -/
inductive TurnOutcome where
  | right | wrong | timeout | pass | void
  deriving DecidableEq, Repr

/-- What a block hands to the line controller. The check total of a VERDICT and the totals of a TALLY page are absent
until an attempt fills them (R40). An OPEN brings the number of the round it opens. -/
inductive Content where
  | close (point : Triple)
  | verdict (turn team : Byte) (outcome : TurnOutcome) (check : Option Half)
  | pass (turn team : Byte)
  | claim (stamp : Triple) (team : Byte)
  | choice (stamp : Triple) (key team : Byte)
  | tally (page : Fin 4) (totals : Option (Half × Half × Half × Half))
  | reveal (key : Byte)
  | open_ (number : Byte) (block : OpenBlock)
  | roll (id window : Byte)
  | present (role team id flags : Byte)
  | hello (role team : Byte) (tag : Half)
  deriving DecidableEq, Repr

/-- A queued frame (R35). -/
structure QFrame where
  place : Place
  content : Content
  /-- the round number, or none while unset -/
  round : Option Byte
  attempts : Nat
  inAttempt : Bool
  withdrawn : Bool
  pending : Option Content
  hander : Hander
  deriving DecidableEq, Repr

/-- The causes of a fault record (R52). -/
inductive FaultCause where
  | stuck | recoveryTimeout | doubleFault
  deriving DecidableEq, Repr

/-- A fault log record (R52). -/
structure FaultRec where
  cause : FaultCause
  escalated : Bool
  /-- four states, oldest first -/
  history : List (Option TxState)
  round : Nat
  clock : Nat
  /-- class in attempt, 0 for none -/
  cls : Nat
  attempts : Nat
  deriving DecidableEq, Repr

/-- The line controller. -/
structure Lcu where
  tx : TxState
  /-- the four states last entered, oldest first (R51) -/
  history : List (Option TxState)
  /-- the occupied places, in class order -/
  queue : List QFrame
  recoveryDeadline : Timer
  recoveryQuiet : Timer
  faultMemory : Timer
  log : List FaultRec
  /-- RECOVERING has been entered since the last reset (R192) -/
  recovered : Bool
  /-- class and count of the frame in attempt when the present dominant period began (R52, log 20) -/
  domFrame : Option (Nat × Nat)
  deriving DecidableEq, Repr

/-! ### Round clock and input capture unit (04) -/

/-- The round clock (R55). -/
structure Rck where
  count : Nat
  running : Bool
  deriving DecidableEq, Repr

/-- The filter states (R59, R60). A press found at entry to JOINING has no accepted press time (R61). -/
inductive Filter where
  | released
  | pressFilter (capture : Nat)
  | pressed (time : Option Nat)
  | releaseFilter (time : Option Nat)
  deriving DecidableEq, Repr

/-- One desk input: its pin, its filter and its filter timer. -/
structure Input where
  /-- the pin is low: the contact is closed -/
  low : Bool
  filter : Filter
  timer : Timer
  deriving DecidableEq, Repr

/-- The state of this desk's CLAIM (R62). -/
inductive OwnClaim where
  | none | pending | taken | dropped
  deriving DecidableEq, Repr

/-- The desk's press record (R62). -/
structure PressRecord where
  ownClaim : OwnClaim
  claimStamp : Option Nat
  lastKey : Nat
  pendingKey : Nat
  jumpLockEnd : Nat
  jumped : Bool
  passTurn : Option Nat
  deriving DecidableEq, Repr

/-- The input capture unit. -/
structure Icu where
  buzz : Input
  keyA : Input
  keyB : Input
  keyC : Input
  keyD : Input
  /-- the hold timer of the BUZZ press (R67) -/
  hold : Timer
  record : PressRecord
  deriving DecidableEq, Repr

/-! ### Round engine, claim list, choice table, score unit (05 to 08) -/

/-- The round formats. -/
inductive Format where
  | buzz | choice
  deriving DecidableEq, Repr

/-- The choice modes. -/
inductive ChoiceMode where
  | first | change
  deriving DecidableEq, Repr

/-- The phases (05, Phases). -/
inductive Phase where
  | unsynced | reading | live | turn | held | closing | ended
  deriving DecidableEq, Repr

/-- The round context (R73). -/
structure Rng where
  round : Nat
  format : Format
  mode : ChoiceMode
  noneg : Bool
  grain : Nat
  armTicks : Nat
  jumpLockTicks : Nat
  settleTicks : Nat
  answerTime : Nat
  windowTicks : Nat
  v : Nat
  w : Nat
  b : Nat
  p : Nat
  /-- the levels of teams 1..16, team 1 first -/
  levels : List Nat
  phase : Phase
  closePoint : Nat
  closed : Bool
  saturated : Bool
  turn : Nat
  answering : Option Nat
  answerClock : Nat
  answerRunning : Bool
  /-- none is NOT_REVEALED -/
  correctKey : Option Nat
  deriving DecidableEq, Repr

/-- The statuses of a claim entry (R97). -/
inductive ClaimStatus where
  | waiting | answering | spent | won | voided
  deriving DecidableEq, Repr

/-- A claim entry (R97). -/
structure Entry where
  team : Nat
  desk : Nat
  stamp : Nat
  level : Nat
  status : ClaimStatus
  outcome : Option TurnOutcome
  late : Bool
  adopted : Bool
  deriving DecidableEq, Repr

/-- The claim list, in list order (R99). -/
structure Clt where
  entries : List Entry
  deriving DecidableEq, Repr

/-- A choice record (R121). -/
structure ChoiceRec where
  key : Nat
  stamp : Nat
  desk : Nat
  changes : Nat
  deriving DecidableEq, Repr

/-- The choice table: sixteen records, team 1 first. -/
structure Cht where
  records : List ChoiceRec
  deriving DecidableEq, Repr

/-- A team record (R137). -/
structure TeamRec where
  total : Int
  rights : Nat
  wrongs : Nat
  unconfirmed : Bool
  seated : Bool
  rank : Nat
  deriving DecidableEq, Repr

/-- The score unit: sixteen records, team 1 first. -/
structure Scu where
  records : List TeamRec
  deriving DecidableEq, Repr

/-! ### Console function and presence table (09, 11) -/

/-- The pending verdict kinds (R165, R166). -/
inductive VerdictKind where
  | host | automatic
  deriving DecidableEq, Repr

/-- The roll states (11, Roll call). -/
inductive RollState where
  | idle | polling
  deriving DecidableEq, Repr

/-- The roll report (R193). -/
structure RollReport where
  valid : Bool
  id : Nat
  window : Nat
  desks : List Nat
  count : Nat
  deriving DecidableEq, Repr

/-- The console function. Sets of pages and of desks are strictly rising lists. -/
structure Cnf where
  lastRound : Nat
  verdictPending : Option Nat
  verdictKind : VerdictKind
  dirty : List Nat
  rollState : RollState
  lastRollId : Nat
  currentRoll : Option Nat
  window : Option Nat
  windowTimer : Timer
  replySet : List Nat
  report : RollReport
  deriving DecidableEq, Repr

/-- A presence entry (R187). -/
structure PresEntry where
  heard : Bool
  role : Role
  team : Nat
  tag : Half
  lastRound : Nat
  lastRoll : Nat
  unsynced : Bool
  recovered : Bool
  unconfirmed : Bool
  deriving DecidableEq, Repr

/-- The presence table: 64 entries in desk order, and the seated-team set as a strictly rising list. -/
structure Prs where
  entries : List PresEntry
  seated : List Nat
  deriving DecidableEq, Repr

/-! ### Panel driver (10) -/

/-- The lamp patterns (R176). -/
inductive Pattern where
  | off | on | slow | fast
  deriving DecidableEq, Repr

/-- Something for each of the lamps TURN, WAIT and LOCK. -/
structure PhaseLamps where
  turn : Pattern
  wait : Pattern
  lock : Pattern
  deriving DecidableEq, Repr

/-- The four lamp outputs. -/
structure LampPins where
  turn : Bool
  wait : Bool
  lock : Bool
  fault : Bool
  deriving DecidableEq, Repr

/-- What one display position shows (R177). -/
inductive Glyph where
  | digit (n : Nat)
  | blank | dash
  | a | b | c | d | f
  deriving DecidableEq, Repr

/-- The display content (R177). -/
structure Content4 where
  pos1 : Glyph
  pos2 : Glyph
  pos3 : Glyph
  pos4 : Glyph
  sign : Bool
  point : Bool
  deriving DecidableEq, Repr

/-- The panel driver. -/
structure Pnl where
  lamps : PhaseLamps
  fault : Pattern
  lampOut : LampPins
  content : Content4
  lastSent : Content4
  update : Timer
  flash : Timer
  /-- the blink base, in half-periods of FAST within one period of SLOW: 0..7 (log 18) -/
  blink : Nat
  deriving DecidableEq, Repr

/-! ### Command port (12) -/

/-- The transfer states (12). -/
inductive Transfer where
  | waitSelect | shifting | waitRelease
  deriving DecidableEq, Repr

/-- The command port. Flags and mask hold bit n for the n-th event of R200, bit 0 ROUND_OPENED. -/
structure Cmp where
  transfer : Transfer
  csN : Bool
  /-- the bits that a transfer shifts out on SDO, the first to leave first; none while SDO is released (R195) -/
  sdo : Option (List Bool)
  heldReply : List Byte
  count : Byte
  flags : BitVec 14
  mask : BitVec 14
  irqN : Bool
  deriving DecidableEq, Repr

/-- The whole state. `ltx` is what the station drives on LTX: the nanoseconds for which it drives from the edge or boundary
that began the present pulse, none while LTX is released (R16, R17). `pending` is the queue of the commands that are
waiting, first in first out; `free` is the model's own counter of free values. -/
structure State where
  suu : Suu
  sto : Sto
  lif : Lif
  lcu : Lcu
  rck : Rck
  icu : Icu
  rng : Rng
  clt : Clt
  cht : Cht
  scu : Scu
  cnf : Cnf
  prs : Prs
  pnl : Pnl
  cmp : Cmp
  ltx : Option Nat
  pending : List Instr
  free : Nat
  deriving DecidableEq, Repr

/-! ### Updates, one per block -/

def State.withSuu (s : State) (x : Suu) : State := { s with suu := x }
def State.withSto (s : State) (x : Sto) : State := { s with sto := x }
def State.withLif (s : State) (x : Lif) : State := { s with lif := x }
def State.withLcu (s : State) (x : Lcu) : State := { s with lcu := x }
def State.withRck (s : State) (x : Rck) : State := { s with rck := x }
def State.withIcu (s : State) (x : Icu) : State := { s with icu := x }
def State.withRng (s : State) (x : Rng) : State := { s with rng := x }
def State.withClt (s : State) (x : Clt) : State := { s with clt := x }
def State.withCht (s : State) (x : Cht) : State := { s with cht := x }
def State.withScu (s : State) (x : Scu) : State := { s with scu := x }
def State.withCnf (s : State) (x : Cnf) : State := { s with cnf := x }
def State.withPrs (s : State) (x : Prs) : State := { s with prs := x }
def State.withPnl (s : State) (x : Pnl) : State := { s with pnl := x }
def State.withCmp (s : State) (x : Cmp) : State := { s with cmp := x }
def State.withLtx (s : State) (x : Option Nat) : State := { s with ltx := x }
def State.withPending (s : State) (x : List Instr) : State := { s with pending := x }
def State.withFree (s : State) (x : Nat) : State := { s with free := x }

/-! ### Reset values -/

/-- The identity record's reset state (R2). -/
def Identity.reset : Identity :=
  { role := .none, desk := 0, team := 0, tag := 0, filterMs := 1, passHold := 5, idleDisplay := .total, blink := false,
    reason := .none }

/-- The start-up unit after reset (R5, R15). Straps low, low: DESIGN CHOICE (log 2). -/
def Suu.reset : Suu :=
  { startUp := .loading, identity := .reset, muted := false, strap1 := false, strap0 := false, joinWait := .off }

/-- The store after reset: the LOADING read has set the write-in-progress flag (R5). Rows erased: DESIGN CHOICE (log 3). -/
def Sto.reset : Sto :=
  { row0 := 0xFFFF, row1 := 0xFFFF, row2 := 0xFFFF, row3 := 0xFFFF, busy := true, write := none, timer := .off }

/-- The line interface after reset (R22). Line recessive: DESIGN CHOICE (log 4). -/
def Lif.reset : Lif :=
  { decode := .hunt, idleSeen := false, dominant := false, faultFound := false, run := false, cells := [], opened := false,
    since := 0, ack := none, edgeNew := false }

/-- The line controller after reset (R51, R54). -/
def Lcu.reset : Lcu :=
  { tx := .idle, history := [none, none, none, some .idle], queue := [], recoveryDeadline := .off, recoveryQuiet := .off,
    faultMemory := .off, log := [], recovered := false, domFrame := none }

/-- The round clock after reset (R55, R72). -/
def Rck.reset : Rck := { count := 0, running := false }

/-- A desk input after reset (R61, R72). Pin high: DESIGN CHOICE (log 4). -/
def Input.reset : Input := { low := false, filter := .released, timer := .off }

/-- The press record after reset and at the taking of an OPEN (R62). -/
def PressRecord.reset : PressRecord :=
  { ownClaim := .none, claimStamp := none, lastKey := 0, pendingKey := 0, jumpLockEnd := 0, jumped := false, passTurn := none }

/-- The input capture unit after reset (R72). -/
def Icu.reset : Icu :=
  { buzz := .reset, keyA := .reset, keyB := .reset, keyC := .reset, keyD := .reset, hold := .off, record := .reset }

/-- The round context after reset (R73). -/
def Rng.reset : Rng :=
  { round := 0, format := .buzz, mode := .first, noneg := false, grain := 1, armTicks := 0, jumpLockTicks := 0,
    settleTicks := 500, answerTime := 100, windowTicks := 10000, v := 0, w := 0, b := 0, p := 0,
    levels := List.replicate 16 0, phase := .unsynced, closePoint := 0, closed := false, saturated := false, turn := 0,
    answering := none, answerClock := 0, answerRunning := false, correctKey := none }

/-- The claim list after reset (R98). -/
def Clt.reset : Clt := { entries := [] }

/-- An empty choice record (R121). -/
def ChoiceRec.empty : ChoiceRec := { key := 0, stamp := 0, desk := 0, changes := 0 }

/-- The choice table after reset and at the taking of an OPEN (R121). -/
def Cht.reset : Cht := { records := List.replicate 16 .empty }

/-- A team record after reset (R138). -/
def TeamRec.reset : TeamRec :=
  { total := 0, rights := 0, wrongs := 0, unconfirmed := true, seated := false, rank := 0 }

/-- The score unit after reset (R138). -/
def Scu.reset : Scu := { records := List.replicate 16 .reset }

/-- The roll report after reset (11, Roll call). -/
def RollReport.reset : RollReport := { valid := false, id := 0, window := 0, desks := [], count := 0 }

/-- The console function after reset (R175; 11, Roll call). -/
def Cnf.reset : Cnf :=
  { lastRound := 0, verdictPending := none, verdictKind := .host, dirty := [], rollState := .idle, lastRollId := 0,
    currentRoll := none, window := none, windowTimer := .off, replySet := [], report := .reset }

/-- A presence entry after reset (R187). -/
def PresEntry.reset : PresEntry :=
  { heard := false, role := .none, team := 0, tag := 0, lastRound := 0, lastRoll := 0, unsynced := false,
    recovered := false, unconfirmed := false }

/-- The presence table after reset (R187). -/
def Prs.reset : Prs := { entries := List.replicate 64 .reset, seated := [] }

/-- Four dashes, sign and point dark (R176). -/
def Content4.dashes : Content4 :=
  { pos1 := .dash, pos2 := .dash, pos3 := .dash, pos4 := .dash, sign := false, point := false }

/-- The panel driver after reset: an update carrying the four dashes begins at the reset (R176, R177, R184). -/
def Pnl.reset : Pnl :=
  { lamps := ⟨.off, .off, .off⟩, fault := .off, lampOut := ⟨false, false, false, false⟩, content := .dashes,
    lastSent := .dashes, update := .running Config.displayUpdateUs, flash := .off, blink := 0 }

/-- The causes of a reset, coded as the reset reply carries them (R196, R204). -/
inductive ResetCause where
  | powerOn | resetN | restart
  deriving DecidableEq, Repr

/-- The code of a reset cause (R204). -/
def ResetCause.code : ResetCause → Byte
  | .powerOn => 1
  | .resetN => 2
  | .restart => 3

/-- The reset reply: length 6, command code NONE, reply code OK, command count 0, the cause (R196, R204). -/
def resetReply (cause : ResetCause) : List Byte := [0x00, 0x06, 0xFF, 0x00, 0x00, cause.code]

/-- The command port after a power-on reset that finds CS_N high (12; log 4). -/
def Cmp.reset : Cmp :=
  { transfer := .waitSelect, csN := true, sdo := none, heldReply := resetReply .powerOn, count := 0, flags := 0, mask := 0,
    irqN := true }

/-- The machine right after a power-on reset, nothing waiting in its queue. -/
def State.reset : State :=
  { suu := .reset, sto := .reset, lif := .reset, lcu := .reset, rck := .reset, icu := .reset, rng := .reset, clt := .reset,
    cht := .reset, scu := .reset, cnf := .reset, prs := .reset, pnl := .reset, cmp := .reset, ltx := none, pending := [],
    free := 0 }

end Sys2Proof.Machine
end

