-- ==== Sys2Proof/Machine/Operands.lean ====
section
/-! DEFINITION. The operand forms: the bits of a frame and its CRC (R23, R24), the reading of cells and of whole frames
(R18, R25, R29 to R32), the OPEN parameters (R75, R76), the codes of the layouts (R203, R204), the bytes of a record. -/

namespace Sys2Proof.Machine

/-! ### Numbers -/

/-- The nearer end of the range lo..hi, or the value itself when it lies inside (00_scope, "clamp"). -/
def clamp (lo hi x : Nat) : Nat := max lo (min hi x)

/-- Insertion into a strictly rising list that stands for a set. -/
def insertNat (n : Nat) : List Nat → List Nat
  | [] => [n]
  | x :: xs => if n < x then n :: x :: xs else if n = x then x :: xs else x :: insertNat n xs

/-! ### Bits and bytes, most significant first (13) -/

/-- The bits of a field, most significant first (R23). -/
def bitsOf {n : Nat} (x : BitVec n) : List Bool := (List.range n).map x.getMsbD

/-- The number that bits spell, most significant first. -/
def natOfBits (bits : List Bool) : Nat := bits.foldl (fun acc b => 2 * acc + b.toNat) 0

/-- The two bytes of a field, most significant first. -/
def bytes2 (x : Half) : List Byte := [x.extractLsb' 8 8, x.extractLsb' 0 8]

/-- The three bytes of a field, most significant first. -/
def bytes3 (x : Triple) : List Byte := [x.extractLsb' 16 8, x.extractLsb' 8 8, x.extractLsb' 0 8]

/-- The four level bytes of an OPEN block: byte 15 first (R203). -/
def bytes4 (x : BitVec 32) : List Byte :=
  [x.extractLsb' 24 8, x.extractLsb' 16 8, x.extractLsb' 8 8, x.extractLsb' 0 8]

/-- The field of two bytes, most significant first. -/
def half (a b : Byte) : Half := a ++ b

/-- The field of three bytes, most significant first. -/
def triple (a b c : Byte) : Triple := a ++ b ++ c

/-- A byte that carries a number. -/
def byteOf (n : Nat) : Byte := BitVec.ofNat 8 n

/-- One bit of a byte, set or clear. -/
def bitAt (n : Nat) (b : Bool) : Byte := if b then BitVec.ofNat 8 (2 ^ n) else 0

/-! ### Frame classes and payloads (R25, R203) -/

/-- The class of a payload (R25). -/
def payloadClass : Payload → Nat
  | .close .. => 1
  | .verdict .. => 2
  | .pass .. => 3
  | .claim .. => 4
  | .choice .. => 5
  | .tally .. => 6
  | .reveal .. => 7
  | .open_ .. => 8
  | .roll .. => 9
  | .present .. => 10
  | .hello .. => 11

/-- The fixed payload length of a class, none for a class not in use (R25). -/
def classLength : Nat → Option Nat
  | 1 => some 3
  | 2 => some 5
  | 3 => some 2
  | 4 => some 4
  | 5 => some 5
  | 6 => some 9
  | 7 => some 1
  | 8 => some 19
  | 9 => some 2
  | 10 => some 4
  | 11 => some 4
  | _ => none

/-- The nineteen bytes of a parameter block (R203). -/
def blockBytes (b : OpenBlock) : List Byte :=
  [b.flags, b.armDelay, b.jumpLock, b.settle] ++ bytes2 b.answerTime ++ bytes2 b.window ++ bytes2 b.v ++ bytes2 b.w ++
    bytes2 b.b ++ [b.p] ++ bytes4 b.levels

/-- The parameter block that nineteen bytes hold (R203). -/
def parseBlock : List Byte → Option OpenBlock
  | [f, a, j, s, t1, t0, n1, n0, v1, v0, w1, w0, b1, b0, p, l3, l2, l1, l0] =>
    some { flags := f, armDelay := a, jumpLock := j, settle := s, answerTime := half t1 t0, window := half n1 n0,
           v := half v1 v0, w := half w1 w0, b := half b1 b0, p := p, levels := l3 ++ l2 ++ l1 ++ l0 }
  | _ => none

/-- The payload bytes of a frame (R203). -/
def payloadBytes : Payload → List Byte
  | .close p => bytes3 p
  | .verdict t m o c => [t, m, o] ++ bytes2 c
  | .pass t m => [t, m]
  | .claim s m => bytes3 s ++ [m]
  | .choice s k m => bytes3 s ++ [k, m]
  | .tally p a b c d => [p] ++ bytes2 a ++ bytes2 b ++ bytes2 c ++ bytes2 d
  | .reveal k => [k]
  | .open_ b => blockBytes b
  | .roll i w => [i, w]
  | .present r m i f => [r, m, i, f]
  | .hello r m t => [r, m] ++ bytes2 t

/-- The payload that a class and its bytes spell (R203). -/
def parsePayload : Nat → List Byte → Option Payload
  | 1, [a, b, c] => some (.close (triple a b c))
  | 2, [t, m, o, c1, c0] => some (.verdict t m o (half c1 c0))
  | 3, [t, m] => some (.pass t m)
  | 4, [a, b, c, m] => some (.claim (triple a b c) m)
  | 5, [a, b, c, k, m] => some (.choice (triple a b c) k m)
  | 6, [p, a1, a0, b1, b0, c1, c0, d1, d0] => some (.tally p (half a1 a0) (half b1 b0) (half c1 c0) (half d1 d0))
  | 7, [k] => some (.reveal k)
  | 8, bytes => (parseBlock bytes).map .open_
  | 9, [i, w] => some (.roll i w)
  | 10, [r, m, i, f] => some (.present r m i f)
  | 11, [r, m, t1, t0] => some (.hello r m (half t1 t0))
  | _, _ => none

/-- The sender check of the class: may this desk send this payload (R25, R33)? -/
def senderAllowed (desk : Nat) : Payload → Bool
  | .close .. | .verdict .. | .tally .. | .reveal .. | .open_ .. | .roll .. => desk == 0
  | .pass .. | .claim .. | .choice .. => decide (1 ≤ desk) && decide (desk ≤ 48)
  | .present .. => desk != 0
  | .hello .. => true

/-! ### The bits of a frame and the CRC (R23, R24) -/

/-- One step of the CRC: the bit is combined with the remainder's most significant bit, the remainder is shifted, and
0x1021 is added without carry when the combined bit is 1 (R24). -/
def crcStep (r : Half) (b : Bool) : Half :=
  if r.msb != b then (r <<< 1) ^^^ 0x1021#16 else r <<< 1

/-- The CRC of a run of bits, from a remainder of all ones (R24). -/
def crc (bits : List Bool) : Half := bits.foldl crcStep 0xFFFF#16

/-- Class, sender desk, round number, length and payload, in the order they are sent (R23). -/
def frameBits (f : Frame) : List Bool :=
  bitsOf (BitVec.ofNat 4 (payloadClass f.body)) ++ bitsOf f.desk ++ bitsOf f.round ++
    bitsOf (BitVec.ofNat 5 (payloadBytes f.body).length) ++ (payloadBytes f.body).flatMap bitsOf

/-- The bits of a frame up to its last CRC cell (R23, R24). -/
def wireBits (f : Frame) : List Bool := frameBits f ++ bitsOf (crc (frameBits f))

/-! ### Reading cells (R17, R18) -/

/-- The reading of a cell by its pulse length (R18). -/
def readCell : CellPulse → CellReading
  | .missing => .missing
  | .earlyEdge => .widthError
  | .pulse ns =>
    if ns < 1000 then .widthError
    else if ns < 3500 then .one
    else if ns < 4500 then .widthError
    else if ns ≤ 7000 then .zero
    else .widthError

/-- A clean reading of a bit. -/
def CellReading.ofBit (b : Bool) : CellReading := if b then .one else .zero

/-- Clean readings of bits. -/
def cleanCells (bits : List Bool) : List CellReading := bits.map CellReading.ofBit

/-- The bit of a clean reading. -/
def CellReading.bit? : CellReading → Option Bool
  | .zero => some false
  | .one => some true
  | _ => none

/-- The cells of class, sender desk, round number and length (R23). -/
def headerCells : Nat := 23

/-- The cells of the contention field (R23). -/
def contentionCells : Nat := 10

/-- The bits of readings that are all clean. -/
def readBits : List CellReading → Option (List Bool)
  | [] => some []
  | c :: cs => match c.bit?, readBits cs with
    | some b, some bs => some (b :: bs)
    | _, _ => none

/-- Do these readings, the last one just made, make a receiver leave the frame: a missing cell anywhere, or a width
error before the whole length field has been read (R30)? -/
def beginsRun (cells : List CellReading) : Bool :=
  match cells.reverse with
  | [] => false
  | last :: before =>
    before.all (· != .missing) && ((before.reverse.take headerCells).all (· != .widthError)) &&
      (last == .missing || (last == .widthError && decide (cells.length ≤ headerCells)))

/-- The decode errors a receiver keeps (R25, R29). -/
inductive DecodeError where
  | width | badClass | badLength | crcMismatch
  deriving DecidableEq, Repr

/-- The first cell that reads as a width error, from a position on. -/
def firstWidthError : Nat → List CellReading → Option Nat
  | _, [] => none
  | n, c :: cs => if c.bit?.isNone then some n else firstWidthError (n + 1) cs

/-- The length that the header's bits give, as read. -/
def headerLength (bits : List Bool) : Nat := natOfBits ((bits.drop 18).take 5)

/-- How many cells a frame has up to its last CRC cell, once its whole header has been read without a width error: class and
length errors leave the slots where the length field puts them (R25). -/
def placedCells (cells : List CellReading) : Option Nat :=
  if cells.length < headerCells then none
  else (readBits (cells.take headerCells)).map fun header => headerCells + 8 * headerLength header + 16

/-- The class that the header's bits give, as read. -/
def headerClass (bits : List Bool) : Nat := natOfBits (bits.take 4)

/-- A receiver's reading of a whole frame, from the first contention cell to the last CRC cell. -/
inductive Reception where
  /-- the readings are no whole frame whose slots a receiver could place (R30) -/
  | unplaced
  /-- the first error with its cell position (R25, R29) -/
  | errored (error : DecodeError) (cell : Nat)
  /-- decoded cleanly -/
  | clean (frame : Frame)
  deriving DecidableEq, Repr

/-- Groups of eight bits as bytes. -/
def bytesOfBits : Nat → List Bool → List Byte
  | 0, _ => []
  | n + 1, bits => byteOf (natOfBits (bits.take 8)) :: bytesOfBits n (bits.drop 8)

/-- The frame that clean bits spell, if class and payload fit. -/
def parseFrame (bits : List Bool) : Option Frame :=
  (parsePayload (headerClass bits) (bytesOfBits (headerLength bits) (bits.drop headerCells))).map fun body =>
    { desk := BitVec.ofNat 6 (natOfBits ((bits.drop 4).take 6)), round := byteOf (natOfBits ((bits.drop 10).take 8)),
      body := body }

/-- How a receiver decodes a frame's cells (R18, R24, R25, R29, R30). Class and length errors are found at the last length
cell; a width error after it is kept as the frame's error; the CRC is compared when no error is held. -/
def receive (cells : List CellReading) : Reception :=
  match readBits (cells.take headerCells) with
  | none => .unplaced
  | some header =>
    if cells.length ≠ headerCells + 8 * headerLength header + 16 then .unplaced
    else if cells.any (· == .missing) then .unplaced
    else match classLength (headerClass header) with
      | none => .errored .badClass (headerCells - 1)
      | some n =>
        if headerLength header ≠ n then .errored .badLength (headerCells - 1)
        else match firstWidthError 0 cells, readBits cells with
          | some k, _ => .errored .width k
          | none, none => .unplaced
          | none, some bits =>
            let body := bits.take (headerCells + 8 * n)
            if bitsOf (crc body) = bits.drop (headerCells + 8 * n) then
              match parseFrame body with
              | some f => .clean f
              | none => .unplaced
            else .errored .crcMismatch (cells.length - 1)

/-! ### The codes of the layouts (R203, R204) -/

/-- The outcome that a code names (R203). -/
def outcomeOfCode : Nat → Option TurnOutcome
  | 1 => some .right
  | 2 => some .wrong
  | 3 => some .timeout
  | 4 => some .pass
  | 5 => some .void
  | _ => none

/-- The code of an outcome (R203). -/
def outcomeCode : TurnOutcome → Byte
  | .right => 1
  | .wrong => 2
  | .timeout => 3
  | .pass => 4
  | .void => 5

/-- The role a HELLO's or PRESENT's code is recorded as (R189, R203). -/
def roleOfCode : Nat → Role
  | 1 => .team
  | 2 => .console
  | 3 => .wall
  | _ => .none

/-- The code of a role; NONE is 0 (R203, R204; log 19). -/
def roleCode : Role → Byte
  | .none => 0
  | .team => 1
  | .console => 2
  | .wall => 3

/-- The code of a transmitter state, 0 for none (R204). -/
def txCode : Option TxState → Byte
  | none => 0
  | some .idle => 1
  | some .waiting => 2
  | some .contending => 3
  | some .sending => 4
  | some .slots => 5
  | some .recovering => 6
  | some .halted => 7
  | some .muted => 8

/-- The code of a phase (R185, R204). -/
def phaseCode : Phase → Nat
  | .unsynced => 0
  | .reading => 1
  | .live => 2
  | .turn => 3
  | .held => 4
  | .closing => 5
  | .ended => 6

/-- The code of a start-up state (R204). -/
def startUpCode : StartUp → Byte
  | .loading => 0
  | .configFault => 1
  | .joining => 2
  | .joined => 3

/-- The code of a config-fault reason (R204). -/
def reasonCode : FaultReason → Byte
  | .none => 0
  | .badRole => 1
  | .badDesk => 2
  | .badTeam => 3

/-- The code of a claim status (R204). -/
def statusCode : ClaimStatus → Nat
  | .waiting => 0
  | .answering => 1
  | .spent => 2
  | .won => 3
  | .voided => 4

/-- The code of a fault cause (R204). -/
def causeCode : FaultCause → Byte
  | .stuck => 1
  | .recoveryTimeout => 2
  | .doubleFault => 3

/-- The reply codes (R204). -/
inductive ReplyCode where
  | ok | busy | late | pending | badState | wrongRole | protected_ | unknown
  deriving DecidableEq, Repr

/-- The byte of a reply code (R204). -/
def ReplyCode.code : ReplyCode → Byte
  | .ok => 0
  | .busy => 1
  | .late => 2
  | .pending => 3
  | .badState => 4
  | .wrongRole => 5
  | .protected_ => 6
  | .unknown => 7

/-! ### OPEN parameters (R75, R76, R203) -/

/-- The format bit of the flags byte (R203). -/
def blockFormat (b : OpenBlock) : Format := if b.flags.getLsbD 7 then .choice else .buzz

/-- The choice mode bit (R203). -/
def blockMode (b : OpenBlock) : ChoiceMode := if b.flags.getLsbD 6 then .change else .first

/-- The NONEG bit (R203). -/
def blockNoneg (b : OpenBlock) : Bool := b.flags.getLsbD 5

/-- The grain of a grain code (R58). -/
def grainOfCode (code : Nat) : Nat := 4 ^ code

/-- The grain code bits 1..0 (R203). -/
def blockGrainCode (b : OpenBlock) : Nat := (b.flags &&& 3).toNat

/-- The level of team t, 1..16: byte 15 + n carries teams 4n+1 to 4n+4, two bits each, the first in bits 7..6 (R203). -/
def blockLevel (b : OpenBlock) (t : Nat) : Nat := ((b.levels >>> (32 - 2 * t)) &&& 3).toNat

/-- The sixteen levels, team 1 first. -/
def blockLevels (b : OpenBlock) : List Nat := (List.range 16).map fun i => blockLevel b (i + 1)

/-- The window of an OPEN, clamped and then cut to fit the clock, in tenths of a second (R75, R76). -/
def blockWindow (b : OpenBlock) : Nat :=
  min (clamp 1 1677 b.window.toNat) ((Config.clockMax - b.armDelay.toNat * 1000) / 10000)

/-- The round context as an OPEN with this round number and block sets it (R75, R76, R77): each parameter clamped and
converted, the close point at arm ticks + window ticks, the phase READING. -/
def loadRound (number : Byte) (b : OpenBlock) : Rng :=
  { round := number.toNat, format := blockFormat b, mode := blockMode b, noneg := blockNoneg b,
    grain := grainOfCode (blockGrainCode b), armTicks := b.armDelay.toNat * 1000, jumpLockTicks := b.jumpLock.toNat * 1000,
    settleTicks := max 5 b.settle.toNat * 100, answerTime := clamp 100 6000 b.answerTime.toNat,
    windowTicks := blockWindow b * 10000, v := min 999 b.v.toNat, w := min 999 b.w.toNat, b := min 999 b.b.toNat,
    p := min 100 b.p.toNat, levels := blockLevels b, phase := .reading,
    closePoint := b.armDelay.toNat * 1000 + blockWindow b * 10000, closed := false, saturated := false, turn := 0,
    answering := none, answerClock := 0, answerRunning := false, correctKey := none }

/-- The block that the console sends for an OPEN_ROUND: quantities clamped, bits 4..2 of the flags byte sent as 0, the
window not cut against the arm (R160, R203). -/
def clampBlock (b : OpenBlock) : OpenBlock :=
  { b with
    flags := b.flags &&& 0xE3
    settle := byteOf (max 5 b.settle.toNat)
    answerTime := BitVec.ofNat 16 (clamp 100 6000 b.answerTime.toNat)
    window := BitVec.ofNat 16 (clamp 1 1677 b.window.toNat)
    v := BitVec.ofNat 16 (min 999 b.v.toNat)
    w := BitVec.ofNat 16 (min 999 b.w.toNat)
    b := BitVec.ofNat 16 (min 999 b.b.toNat)
    p := byteOf (min 100 b.p.toNat) }

/-- The grain code of a grain. -/
def grainCode (grain : Nat) : Nat := if grain = 1 then 0 else if grain = 4 then 1 else if grain = 16 then 2 else 3

/-- Levels packed two bits to a team, team 1 in the most significant pair (R203). -/
def packLevels (levels : List Nat) : BitVec 32 :=
  BitVec.ofNat 32 (((List.range 16).map fun i => levels.getD i 0 % 4).foldl (fun acc l => acc * 4 + l) 0)

/-- The held parameters re-encoded in a block, in their clamped and cut values (R204). -/
def blockOfRound (r : Rng) : OpenBlock :=
  { flags := bitAt 7 (r.format == .choice) ||| bitAt 6 (r.mode == .change) ||| bitAt 5 r.noneg ||| byteOf (grainCode r.grain),
    armDelay := byteOf (r.armTicks / 1000), jumpLock := byteOf (r.jumpLockTicks / 1000), settle := byteOf (r.settleTicks / 100),
    answerTime := BitVec.ofNat 16 r.answerTime, window := BitVec.ofNat 16 (r.windowTicks / 10000),
    v := BitVec.ofNat 16 r.v, w := BitVec.ofNat 16 r.w, b := BitVec.ofNat 16 r.b, p := byteOf r.p,
    levels := packLevels r.levels }

/-! ### Store rows (R204) -/

/-- The desk number in bits 15..10 of row 0. -/
def rowDesk (r : Half) : Nat := (r >>> 10).toNat

/-- The team in bits 4..0 of row 0. -/
def rowTeam (r : Half) : Nat := (r &&& 0x1F).toNat

/-- The filter time that bits 1..0 of row 1 select: 1, 2, 4 or 8 ms (R4). -/
def rowFilterMs (r : Half) : Nat := 2 ^ (r &&& 3).toNat

/-- The pass-hold time in bits 12..8 of row 1, clamped to 5..25 tenths of a second (R4). -/
def rowPassHold (r : Half) : Nat := clamp 5 25 ((r >>> 8) &&& 0x1F).toNat

/-- The idle display in bit 0 of row 2, 1 for RANK. -/
def rowIdleDisplay (r : Half) : IdleDisplay := if r.getLsbD 0 then .rank else .total

/-- The unconfirmed blink in bit 1 of row 2, 1 for on. -/
def rowBlink (r : Half) : Bool := r.getLsbD 1

/-- The filter code of a filter time. -/
def filterCode (ms : Nat) : Nat := if ms = 1 then 0 else if ms = 2 then 1 else if ms = 4 then 2 else 3

/-! ### Records (R204) -/

/-- A reply record: length, command code, reply code, command count, body. -/
def replyRecord (code : Byte) (rc : ReplyCode) (count : Byte) (body : List Byte) : List Byte :=
  bytes2 (BitVec.ofNat 16 (5 + body.length)) ++ [code, rc.code, count] ++ body

/-- A byte of a reply whose layout names only some bits: the others are free values (log 11). `spare` has a 1 at every bit
the layout leaves unnamed. -/
def withSpare (named spare : Byte) (place n : Nat) : Byte := (named &&& ~~~spare) ||| (Config.unnamedBits place n &&& spare)

/-- A flag set of a reply; bits 14 and 15 name no flag (R204; log 11). -/
def flagSetBytes (flags : BitVec 14) (place n : Nat) : List Byte :=
  let x : Half := flags.zeroExtend 16
  [withSpare (x.extractLsb' 8 8) 0xC0 place n, x.extractLsb' 0 8]

/-- A desk set of 8 bytes: desk d in byte d / 8, at bit 7 − (d mod 8) (R204). -/
def deskSetBytes (desks : List Nat) : List Byte :=
  (List.range 8).map fun i => (List.range 8).foldl (fun acc k => acc ||| bitAt (7 - k) (desks.contains (8 * i + k))) 0

/-- The seated set: bit t − 1 for team t (R204). -/
def seatedBytes (teams : List Nat) : List Byte :=
  bytes2 ((List.range 16).foldl (fun acc i => acc ||| (if teams.contains (i + 1) then BitVec.ofNat 16 (2 ^ i) else 0)) 0)

end Sys2Proof.Machine
end

