-- ==== Sys2Proof/Machine/Flags.lean ====
section
/-! DEFINITION. The event flags, the mask and the interrupt line (R200 to R202). -/

namespace Sys2Proof.Machine

/-- The fourteen events, in the order of R200's table. -/
inductive Event where
  | roundOpened | turnGranted | turnEnded | roundEnded | scoreChanged | diverged | txDropped | lineFault | halted
  | duplicate | rollDone | storeDone | verdictSuperseded | presenceChanged
  deriving DecidableEq, Repr

/-- The bit of an event, counting from 0 for ROUND_OPENED (R204). -/
def Event.bit : Event → Nat
  | .roundOpened => 0
  | .turnGranted => 1
  | .turnEnded => 2
  | .roundEnded => 3
  | .scoreChanged => 4
  | .diverged => 5
  | .txDropped => 6
  | .lineFault => 7
  | .halted => 8
  | .duplicate => 9
  | .rollDone => 10
  | .storeDone => 11
  | .verdictSuperseded => 12
  | .presenceChanged => 13

/-- The flag set that names one event. -/
def Event.flag (e : Event) : BitVec 14 := BitVec.ofNat 14 (2 ^ e.bit)

/-- Is the event's flag set? -/
def State.flagSet (s : State) (e : Event) : Bool := s.cmp.flags.getLsbD e.bit

/-- Raises a flag; one already set stays set (R200). -/
def raise (e : Event) (s : State) : State := s.withCmp { s.cmp with flags := s.cmp.flags ||| e.flag }

/-- Raises a flag if its cause has occurred. -/
def raiseIf (cause : Bool) (e : Event) (s : State) : State := if cause then raise e s else s

/-- The flags that an argument names: bits 14 and 15 name none (R201, R202, R204). -/
def namedFlags (arg : Half) : BitVec 14 := arg.truncate 14

/-- The level of IRQ_N: low while one or more flags are both set and enabled (R202). -/
def irqLevel (flags mask : BitVec 14) : Bool := flags &&& mask == 0

end Sys2Proof.Machine
end

