-- ==== Sys2Proof/Machine/Score.lean ====
section
/-! DEFINITION. The score unit (08): deltas, rebound values, speed bonus, check totals, tally pages, ranks. -/

namespace Sys2Proof.Machine

/-! ### Arithmetic -/

/-- Saturation to −9,999..+9,999 (R137, R139). -/
def saturate (x : Int) : Int := max (-Config.totalMax) (min Config.totalMax x)

/-- The total that a scoring delta gives: sum, NONEG, saturation (R139). -/
def applyDelta (noneg : Bool) (total delta : Int) : Int :=
  saturate (if noneg && decide (delta < 0) && decide (total + delta < 0) then 0 else total + delta)

/-- A count raised by one, held at 255 (R121, R140). -/
def countUp (n : Nat) : Nat := min Config.countMax (n + 1)

/-- The chain of R143 before its raise: v after k rebounds at p per cent, rounded down at every step. -/
def reboundChain (v p : Nat) : Nat → Nat
  | 0 => v
  | k + 1 => reboundChain v p k * p / 100

/-- The rebound value vk: a chain that reaches 0 with P > 0 and V > 0 gives 1 (R143). -/
def reboundValue (v p k : Nat) : Nat :=
  if 0 < p ∧ 0 < v ∧ reboundChain v p k = 0 then 1 else reboundChain v p k

/-- The delta of a turn (R144). -/
def turnDelta (r : Rng) (turn : Nat) : TurnOutcome → Int
  | .right => (reboundValue r.v r.p (turn - 1) : Int)
  | .wrong => -(r.w : Int)
  | .timeout => -((r.w / 2 : Nat) : Int)
  | .pass => 0
  | .void => 0

/-- The elapsed time of a choice record: from the arm to the first raw tick of its quantum, 0 at least, the window at
most (R147). -/
def elapsedTicks (r : Rng) (stamp : Nat) : Nat := min r.windowTicks (stamp * r.grain - r.armTicks)

/-- The speed bonus (R147). -/
def speedBonus (r : Rng) (stamp : Nat) : Nat := r.b * (r.windowTicks - elapsedTicks r stamp) / r.windowTicks

/-! ### Records -/

/-- Is this a team of the scoreboard? -/
def isTeam (t : Nat) : Bool := decide (1 ≤ t) && decide (t ≤ 16)

/-- The record of team t. -/
def Scu.team (x : Scu) (t : Nat) : TeamRec := x.records.getD (t - 1) .reset

/-- The records with team t's changed. -/
def modifyTeam (t : Nat) (f : TeamRec → TeamRec) (records : List TeamRec) : List TeamRec := records.modify (t - 1) f

/-- The rank of a record among all records (R156). -/
def rankOf (records : List TeamRec) (x : TeamRec) : Nat :=
  if x.seated then 1 + records.countP (fun y => y.seated && decide (x.total < y.total)) else 0

/-- Every rank worked out anew (R156). -/
def rankAll (records : List TeamRec) : List TeamRec := records.map fun x => { x with rank := rankOf records x }

/-- Total, rights and wrongs, the fields whose change raises SCORE_CHANGED (R142). -/
def TeamRec.figures (x : TeamRec) : Int × Nat × Nat := (x.total, x.rights, x.wrongs)

/-- A change of the scoreboard: the records become these, ranks recomputed, SCORE_CHANGED raised if a total or a count
differs from what it was (R142). -/
def commitScores (records : List TeamRec) (s : State) : State :=
  raiseIf (records.map TeamRec.figures != s.scu.records.map TeamRec.figures) .scoreChanged (s.withScu ⟨rankAll records⟩)

/-- The count an outcome raises (R144). -/
def countOutcome (o : TurnOutcome) (x : TeamRec) : TeamRec :=
  match o with
  | .right => { x with rights := countUp x.rights }
  | .wrong | .timeout => { x with wrongs := countUp x.wrongs }
  | .pass | .void => x

/-- A delta and its count applied to one record (R139, R140). -/
def scoreRecord (noneg : Bool) (delta : Int) (o : TurnOutcome) (x : TeamRec) : TeamRec :=
  countOutcome o { x with total := applyDelta noneg x.total delta }

/-- The delta of turn t for team T with outcome o, applied and counted (R144, R145). -/
def scoreTurn (turn team : Nat) (o : TurnOutcome) (s : State) : State :=
  commitScores (modifyTeam team (scoreRecord s.rng.noneg (turnDelta s.rng turn o) o) s.scu.records) s

/-- A record that takes the console's figure and is confirmed (R150, R151, R153). -/
def adoptRecord (c : Int) (x : TeamRec) : TeamRec := { x with total := saturate c, unconfirmed := false }

/-- A check total for team T at a TEAM or WALL station: compared, adopted if different with DIVERGED raised, the flag
cleared in both cases. At a CONSOLE nothing (R150 to R152). -/
def takeCheckTotal (team : Nat) (c : Int) (s : State) : State :=
  if s.suu.identity.role = .console then s
  else
    raiseIf ((s.scu.team team).total != saturate c) .diverged
      (commitScores (modifyTeam team (adoptRecord c) s.scu.records) s)

/-- The records after a tally page's four totals (R153). -/
def tallyRecords (page : Nat) (totals : List Int) (records : List TeamRec) : List TeamRec :=
  (totals.zipIdx (4 * page + 1)).foldl (fun rs ct => modifyTeam ct.2 (adoptRecord ct.1) rs) records

/-- A tally page 0..3 (R153). -/
def takePage (page : Nat) (totals : List Int) (s : State) : State :=
  let records := tallyRecords page totals s.scu.records
  raiseIf (records.map TeamRec.total != s.scu.records.map TeamRec.total) .diverged (commitScores records s)

/-- One record scored at a reveal of key K; TEAM and WALL set its flag when the choice record is not empty (R141, R148). -/
def revealRecord (r : Rng) (confirmed : Bool) (key : Nat) (c : ChoiceRec) (x : TeamRec) : TeamRec :=
  if c.key = 0 then x
  else
    { (if c.key = key then scoreRecord r.noneg ((r.v + speedBonus r c.stamp : Nat) : Int) .right x
       else scoreRecord r.noneg (-(r.w : Int)) .wrong x) with unconfirmed := if confirmed then x.unconfirmed else true }

/-- The sixteen records scored against the key, in one change (R130, R148). -/
def scoreReveal (key : Nat) (s : State) : State :=
  commitScores (List.zipWith (revealRecord s.rng (s.suu.identity.role == .console) key) s.cht.records s.scu.records) s

/-- The host operation Set (R154). -/
def setTotalOp (team : Nat) (value : Int) (s : State) : State :=
  commitScores (modifyTeam team (fun x => { x with total := saturate value }) s.scu.records) s

/-- The host operation Adjust (R154). -/
def adjustOp (team : Nat) (delta : Int) (s : State) : State :=
  commitScores (modifyTeam team (fun x => { x with total := saturate (x.total + delta) }) s.scu.records) s

/-- The seated fields follow the presence table's set, and the ranks are recomputed (R155). -/
def seatTeams (teams : List Nat) (s : State) : State :=
  s.withScu ⟨rankAll (s.scu.records.mapIdx fun i x => { x with seated := teams.contains (i + 1) })⟩

/-- The unconfirmed flags of all teams cleared, when LOADING ends as CONSOLE (R138). -/
def confirmAll (s : State) : State := s.withScu ⟨s.scu.records.map fun x => { x with unconfirmed := false }⟩

/-- The check total the console fills in for turn t of team T with outcome o: its own total with the verdict applied
(R157; 09, R168). -/
def checkTotalFor (s : State) (turn team : Nat) (o : TurnOutcome) : Int :=
  applyDelta s.rng.noneg (s.scu.team team).total (turnDelta s.rng turn o)

end Sys2Proof.Machine
end

