-- ==== Sys2Proof/Machine/Claims.lean ====
section
/-! DEFINITION. The claim list (06) and the choice table (07): order, placing, grants, verdict alignment, taking rules. -/

namespace Sys2Proof.Machine

/-! ### Order of the claim list (R99, R100) -/

/-- Does a's key stand before b's: stamp, then level, then team (R100)? -/
def keyBefore (a b : Entry) : Bool :=
  decide (a.stamp < b.stamp) ||
    (a.stamp == b.stamp && (decide (b.level < a.level) || (a.level == b.level && decide (a.team < b.team))))

/-- The granted part: every entry that is not WAITING (R99). -/
def grantedPart (es : List Entry) : List Entry := es.filter fun e => e.status != .waiting

/-- The waiting part (R99). -/
def waitingPart (es : List Entry) : List Entry := es.filter fun e => e.status == .waiting

/-- Insertion at the key position. -/
def insertKey (e : Entry) : List Entry → List Entry
  | [] => [e]
  | x :: xs => if keyBefore e x then e :: x :: xs else x :: insertKey e xs

/-- An entry placed among the WAITING entries, its late flag set or cleared against the granted part (R103, R104, R111). -/
def placeWaiting (e : Entry) (es : List Entry) : List Entry :=
  grantedPart es ++
    insertKey { e with status := .waiting, late := (grantedPart es).any (keyBefore e) } (waitingPart es)

/-- The entry of team t. -/
def entryOf (t : Nat) (es : List Entry) : Option Entry := es.find? fun e => e.team == t

/-- The list without team t's entry. -/
def withoutTeam (t : Nat) (es : List Entry) : List Entry := es.filter fun e => e.team != t

/-- The settle deadline of an entry (R101). -/
def settleDeadlineOf (r : Rng) (e : Entry) : Nat := e.stamp * r.grain + r.settleTicks

/-! ### Taking a CLAIM (R102 to R105) -/

/-- The stamp bounds of R102 and R122. -/
def stampInBounds (r : Rng) (stamp : Nat) : Bool :=
  decide (r.armTicks / r.grain ≤ stamp) && decide (1 ≤ r.closePoint) && decide (stamp ≤ (r.closePoint - 1) / r.grain)

/-- Is a turn or a grant possible: LIVE, TURN or HELD? -/
def Phase.claiming : Phase → Bool
  | .live | .turn | .held => true
  | _ => false

/-- The acceptance tests of R102. -/
def claimAccepted (r : Rng) (round stamp team : Nat) : Bool :=
  round == r.round && r.format == .buzz && r.phase.claiming && stampInBounds r stamp && isTeam team

/-- The level of a team in the round context (R97). -/
def Rng.level (r : Rng) (team : Nat) : Nat := r.levels.getD (team - 1) 0

/-- The list after an accepted CLAIM: a new entry, a teammate replacement, or no change (R103 to R105). -/
def takeClaim (r : Rng) (desk stamp team : Nat) (es : List Entry) : List Entry :=
  match entryOf team es with
  | none =>
    placeWaiting { team := team, desk := desk, stamp := stamp, level := r.level team, status := .waiting, outcome := none,
                   late := false, adopted := false } es
  | some e =>
    if e.status = .waiting ∧ stamp < e.stamp then placeWaiting { e with stamp := stamp, desk := desk } (withoutTeam team es)
    else es

/-! ### Grants and ends of turns (R106, R107, R109) -/

/-- The head of the waiting part. -/
def waitingHead (es : List Entry) : Option Entry := (waitingPart es).head?

/-- Is an entry ANSWERING? -/
def anyAnswering (es : List Entry) : Bool := es.any fun e => e.status == .answering

/-- Is an entry WAITING or ANSWERING (R116)? -/
def anyOpen (es : List Entry) : Bool := es.any fun e => e.status == .waiting || e.status == .answering

/-- The head of the waiting part becomes ANSWERING, where it stands (R107). -/
def grantHead (es : List Entry) : List Entry :=
  match waitingPart es with
  | [] => es
  | h :: rest => grantedPart es ++ { h with status := .answering } :: rest

/-- An entry with its turn ended (R109). -/
def endedEntry (o : TurnOutcome) (e : Entry) : Entry :=
  match o with
  | .right => { e with status := .won, outcome := none }
  | .void => { e with status := .voided, outcome := none }
  | .wrong | .timeout | .pass => { e with status := .spent, outcome := some o }

/-- The list after the end of team t's turn (R109). -/
def endEntry (t : Nat) (o : TurnOutcome) (es : List Entry) : List Entry :=
  es.map fun e => if e.team = t then endedEntry o e else e

/-! ### Verdict alignment (R110 to R113) -/

/-- T's entry as the turn in progress: its own, or an adopted one (R112, R113). -/
def turnEntry (r : Rng) (count team : Nat) (es : List Entry) : Entry :=
  match entryOf team es with
  | some e => { e with status := .answering, outcome := none }
  | none =>
    { team := team, desk := 0, stamp := count / r.grain, level := r.level team, status := .answering, outcome := none,
      late := false, adopted := true }

/-- Is this the entry of another team that holds the turn in progress? -/
def isRival (team : Nat) (e : Entry) : Bool := e.status == .answering && e.team != team

/-- The list aligned to turn and team of a full verdict, out of step: T's entry placed last of the granted part, then the
rival's ANSWERING entry returned to WAITING with its late flag against that part (R111, R112). -/
def alignEntries (r : Rng) (count team : Nat) (es : List Entry) : List Entry :=
  let others := withoutTeam team es
  let kept := others.filter fun e => !isRival team e
  let base := grantedPart kept ++ turnEntry r count team es :: waitingPart kept
  match others.find? (isRival team) with
  | none => base
  | some e => placeWaiting { e with outcome := none } base

/-! ### Queue positions (R117) -/

/-- 1 plus the number of WAITING and ANSWERING entries before team t's entry, from a position on. -/
def positionFrom (t : Nat) : Nat → List Entry → Option Nat
  | _, [] => none
  | n, e :: es =>
    if e.status = .waiting ∨ e.status = .answering then
      if e.team = t then some n else positionFrom t (n + 1) es
    else if e.team = t then none
    else positionFrom t n es

/-- The queue position of team t. -/
def queuePosition (t : Nat) (es : List Entry) : Option Nat := positionFrom t 1 es

/-! ### The choice table (R122 to R125) -/

/-- The acceptance tests of R122. -/
def choiceAccepted (r : Rng) (round stamp key team : Nat) : Bool :=
  round == r.round && r.format == .choice && (r.phase == .live || r.phase == .closing) && stampInBounds r stamp &&
    (decide (1 ≤ key) && decide (key ≤ 4)) && isTeam team

/-- Does the record take an accepted CHOICE (R123, R124)? -/
def choiceTakes (mode : ChoiceMode) (c : ChoiceRec) (stamp key : Nat) : Bool :=
  c.key == 0 || match mode with
    | .first => decide (stamp < c.stamp)
    | .change => decide (c.stamp < stamp) || (stamp == c.stamp && key != c.key)

/-- A record after an accepted CHOICE (R123 to R125). -/
def takeChoiceRecord (mode : ChoiceMode) (desk stamp key : Nat) (c : ChoiceRec) : ChoiceRec :=
  if choiceTakes mode c stamp key then { key := key, stamp := stamp, desk := desk, changes := countUp c.changes } else c

/-- The table after an accepted CHOICE. -/
def takeChoice (mode : ChoiceMode) (desk stamp key team : Nat) (x : Cht) : Cht :=
  ⟨x.records.modify (team - 1) (takeChoiceRecord mode desk stamp key)⟩

/-- The record of team t. -/
def Cht.team (x : Cht) (t : Nat) : ChoiceRec := x.records.getD (t - 1) .empty

end Sys2Proof.Machine
end

