-- ==== Sys2Proof/Machine/Panel.lean ====
section
/-! DEFINITION. The panel driver's view (10): desk phase, lamp patterns, display content. -/

namespace Sys2Proof.Machine

/-! ### The desk phase (R179 to R181) -/

/-- The desk phases. -/
inductive DeskPhase where
  | idle | reading | jumped | armed | pendingClaim
  | queued (n : Nat)
  | answering | timeUp | spent | won | choosing
  | chosen (key : Nat)
  | closed | revealed
  deriving DecidableEq, Repr

/-- The own team's claim entry. -/
def ownEntry (s : State) : Option Entry := entryOf s.suu.identity.team s.clt.entries

/-- Jumped, and the clock has not reached the jump-lock end (R179). -/
def locked (s : State) : Bool := s.icu.record.jumped && decide (s.rck.count < s.icu.record.jumpLockEnd)

/-- The last lines of R180's table: the desk without an own entry that counts. -/
def deskPhaseNoEntry (s : State) : DeskPhase :=
  if s.icu.record.ownClaim = .pending then .pendingClaim
  else if locked s then .jumped
  else if s.icu.record.ownClaim = .taken ∧ ownEntry s = none then .closed
  else if s.rng.closed then .closed
  else .armed

/-- The lines of R180's table for a round that has not ended. -/
def deskPhaseOpen (s : State) : DeskPhase :=
  match ownEntry s with
  | none => deskPhaseNoEntry s
  | some e => match e.status with
    | .answering => match s.rng.phase with
      | .turn => .answering
      | .held => .timeUp
      | _ => deskPhaseNoEntry s
    | .spent | .voided => .spent
    | .won => .won
    | .waiting => .queued ((queuePosition s.suu.identity.team s.clt.entries).getD 0)

/-- The desk phase of a BUZZ round from LIVE on (R180). -/
def deskPhaseBuzz (s : State) : DeskPhase :=
  if s.rng.phase = .ended then
    match (ownEntry s).map Entry.status with
    | some .won => .won
    | some .spent | some .voided => .spent
    | _ => .closed
  else deskPhaseOpen s

/-- The shown key: the pending key, else the key of the own team's record (R181). -/
def shownKey (s : State) : Nat :=
  if s.icu.record.pendingKey ≠ 0 then s.icu.record.pendingKey else (s.cht.team s.suu.identity.team).key

/-- Has a key 1..4 been revealed? -/
def revealedKey (r : Rng) : Bool := match r.correctKey with
  | some k => decide (1 ≤ k) && decide (k ≤ 4)
  | none => false

/-- The desk phase of a CHOICE round from LIVE on (R181). -/
def deskPhaseChoice (s : State) : DeskPhase :=
  if s.rng.phase = .ended then (if revealedKey s.rng then .revealed else .closed)
  else if s.rng.phase = .live ∧ locked s then .jumped
  else if shownKey s ≠ 0 then .chosen (shownKey s)
  else if s.rng.phase = .live then .choosing
  else .closed

/-- The desk phase of a jumped desk in READING: the tick that ends a lock of 0 is the arm's own instant, from which the desk is
as LIVE has it (R179 to R182; log 8). -/
def deskPhaseJumped (s : State) : DeskPhase :=
  if locked s then .jumped else match s.rng.format with
    | .buzz => .armed
    | .choice => .choosing

/-- The desk phase (R179). -/
def deskPhase (s : State) : DeskPhase :=
  match s.rng.phase with
  | .unsynced => .idle
  | .reading => if s.icu.record.jumped then deskPhaseJumped s else .reading
  | _ => match s.rng.format with
    | .buzz => deskPhaseBuzz s
    | .choice => deskPhaseChoice s

/-! ### Figures (R177) -/

/-- The digit of n at a power of ten; leading zeros are blank, but for a kept place (R177; log 17). -/
def digitAt (n place kept : Nat) : Glyph :=
  if n / 10 ^ place = 0 ∧ kept < place then .blank else .digit (n / 10 ^ place % 10)

/-- A number in the rightmost positions, its last `kept + 1` digits always shown. -/
def numberContent (n kept : Nat) : Content4 :=
  { pos1 := digitAt n 3 kept, pos2 := digitAt n 2 kept, pos3 := digitAt n 1 kept, pos4 := digitAt n 0 kept,
    sign := false, point := false }

/-- A total: magnitude, the sign lit when negative (R177). -/
def totalContent (t : Int) : Content4 := { numberContent t.natAbs 0 with sign := decide (t < 0) }

/-- A rank, 0 as dashes in positions 3 and 4 (R177). -/
def rankContent (n : Nat) : Content4 :=
  if n = 0 then { pos1 := .blank, pos2 := .blank, pos3 := .dash, pos4 := .dash, sign := false, point := false }
  else numberContent n 0

/-- Hundredths of a second with the point lit; position 2 shows 0 under 100 (R177). -/
def hundredthsContent (n : Nat) : Content4 := { numberContent n 2 with point := true }

/-- The letter of a key 1..4. -/
def keyGlyph (k : Nat) : Glyph := if k = 1 then .a else if k = 2 then .b else if k = 3 then .c else .d

/-- A key as a letter in position 4 (R177). -/
def keyContent (k : Nat) : Content4 :=
  { pos1 := .blank, pos2 := .blank, pos3 := .blank, pos4 := keyGlyph k, sign := false, point := false }

/-- All positions blank, sign and point dark. -/
def blankContent : Content4 :=
  { pos1 := .blank, pos2 := .blank, pos3 := .blank, pos4 := .blank, sign := false, point := false }

/-- "CF" (R178). -/
def configContent : Content4 := { blankContent with pos1 := .c, pos2 := .f }

/-- Are SLOW lamps lit: the first half of the blink base's 500 ms period (R176)? -/
def slowLit (blink : Nat) : Bool := decide (blink < 4)

/-- Are FAST lamps lit? -/
def fastLit (blink : Nat) : Bool := blink % 2 == 0

/-- The idle figure, blanked while an unconfirmed figure blinks dark (R182, R183). -/
def idleFigure (s : State) : Content4 :=
  let x := s.scu.team s.suu.identity.team
  if s.suu.identity.blink && x.unconfirmed && !slowLit s.pnl.blink then blankContent
  else match s.suu.identity.idleDisplay with
    | .total => totalContent x.total
    | .rank => rankContent x.rank

/-- The time left of the jump lock in hundredths of a second, rounded up (R182). -/
def jumpHundredths (s : State) : Nat := (s.icu.record.jumpLockEnd - s.rck.count + 999) / 1000

/-- The seconds left of the answer clock, rounded up (R182). -/
def answerSeconds (s : State) : Nat := (s.rng.answerClock + 99) / 100

/-- What a desk phase puts on the display (R182). -/
def deskContent (s : State) : DeskPhase → Content4
  | .jumped => hundredthsContent (jumpHundredths s)
  | .queued n => numberContent n 0
  | .answering => numberContent (answerSeconds s) 0
  | .timeUp => numberContent 0 0
  | .chosen k => keyContent k
  | .idle | .reading | .armed | .pendingClaim | .spent | .won | .choosing | .closed | .revealed => idleFigure s

/-- What a desk phase puts on the three lamps (R182). -/
def deskLamps (s : State) : DeskPhase → PhaseLamps
  | .idle | .closed => ⟨.off, .off, .off⟩
  | .reading => ⟨.off, .slow, .off⟩
  | .jumped => ⟨.off, .off, .fast⟩
  | .armed | .queued _ | .choosing | .chosen _ => ⟨.off, .on, .off⟩
  | .pendingClaim => ⟨.off, .fast, .off⟩
  | .answering => ⟨.on, .off, .off⟩
  | .timeUp => ⟨.fast, .off, .off⟩
  | .spent => ⟨.off, .off, .on⟩
  | .won => ⟨.slow, .off, .off⟩
  | .revealed =>
    let k := (s.cht.team s.suu.identity.team).key
    if some k = s.rng.correctKey then ⟨.on, .off, .off⟩
    else if 1 ≤ k ∧ k ≤ 4 then ⟨.off, .off, .on⟩
    else ⟨.off, .off, .off⟩

/-- The console's display (R185). -/
def consoleContent (r : Rng) : Content4 :=
  let code := Glyph.digit (phaseCode r.phase)
  if r.phase = .unsynced then { pos1 := .dash, pos2 := .dash, pos3 := .dash, pos4 := code, sign := false, point := false }
  else
    { pos1 := digitAt r.round 2 0, pos2 := digitAt r.round 1 0, pos3 := digitAt r.round 0 0, pos4 := code,
      sign := false, point := false }

/-- The wall's display (R186). -/
def wallContent (r : Rng) : Content4 :=
  if r.phase = .unsynced then { pos1 := .blank, pos2 := .dash, pos3 := .dash, pos4 := .dash, sign := false, point := false }
  else { numberContent r.round 0 with pos1 := .blank }

/-- Is the start-up state JOINING or JOINED? -/
def StartUp.atWork : StartUp → Bool
  | .joining | .joined => true
  | _ => false

/-- The display content (R178). -/
def contentOf (s : State) : Content4 :=
  match s.suu.startUp with
  | .loading => .dashes
  | .configFault => configContent
  | .joining | .joined => match s.suu.identity.role with
    | .team => deskContent s (deskPhase s)
    | .console => consoleContent s.rng
    | .wall => wallContent s.rng
    | .none => .dashes

/-- The patterns of TURN, WAIT and LOCK (R178). -/
def lampsOf (s : State) : PhaseLamps :=
  if s.suu.startUp.atWork ∧ s.suu.identity.role = .team then deskLamps s (deskPhase s) else ⟨.off, .off, .off⟩

/-- The FAULT lamp's pattern (R184). -/
def faultPattern (s : State) : Pattern :=
  if s.suu.startUp = .configFault ∨ s.suu.muted = true ∨ s.lcu.tx = .halted then .on
  else if s.pnl.flash.on then .fast
  else if s.lcu.tx = .recovering then .slow
  else .off

/-- A lamp output: dark, lit, or by the half-period of the blink base (R176). -/
def litBy (blink : Nat) : Pattern → Bool
  | .off => false
  | .on => true
  | .slow => slowLit blink
  | .fast => fastLit blink

/-- The four lamp outputs of these patterns. -/
def pinsOf (blink : Nat) (l : PhaseLamps) (f : Pattern) : LampPins :=
  ⟨litBy blink l.turn, litBy blink l.wait, litBy blink l.lock, litBy blink f⟩

/-- An update of the content begins when it differs from the content last sent and none is running (R177). -/
def sendContent (c : Content4) (p : Pnl) : Pnl :=
  if c ≠ p.lastSent ∧ p.update.on = false then
    { p with content := c, lastSent := c, update := .running Config.displayUpdateUs }
  else { p with content := c }

/-- The panel driver with its outputs as the state now has them. -/
def panelOf (s : State) : Pnl :=
  sendContent (contentOf s)
    { s.pnl with
      lamps := lampsOf s, fault := faultPattern s, lampOut := pinsOf s.pnl.blink (lampsOf s) (faultPattern s) }

end Sys2Proof.Machine
end

