-- ==== Sys2Proof/Machine/Ops.lean ====
section
/-! DEFINITION. Operations that steps share: the transmit queue, attempts and their ends, drops and what the handers do on
them, HALTED and MUTED (03, and the parts of 01, 04, 09 that the line controller's reports reach). -/

namespace Sys2Proof.Machine

/-! ### Roles and conditions -/

/-- Does the console function work at this station (09; R159)? -/
def consoleStation (s : State) : Bool := s.suu.identity.role == .console && s.suu.startUp.atWork

/-- Is the line idle, as this station sees it (R19)? -/
def lineIdle (s : State) : Bool := s.lif.decode == .hunt && s.lif.idleSeen && !s.lif.dominant

/-- Has another station's dominant edge been seen at idle, its start mark not yet recognised (R26)? -/
def edgePending (s : State) : Bool := s.lif.decode == .hunt && s.lif.idleSeen && s.lif.dominant

/-- Can another station's start mark be joined: its edge is no more than 1.0 µs old, as R26 has it (R40 says less than 1.0 µs: an edge
exactly that old is joined, the model's choice, log 10)? -/
def joinable (s : State) : Bool := edgePending s && s.lif.edgeNew

/-- Is the transmitter shut down: HALTED or MUTED (R36)? -/
def TxState.shut : TxState → Bool
  | .halted | .muted => true
  | _ => false

/-- The working states of R41. -/
def TxState.working : TxState → Bool
  | .idle | .waiting | .contending | .sending | .slots => true
  | .recovering | .halted | .muted => false

/-! ### Places (R35) -/

/-- The order of the places: classes in order, TALLY pages in page order. -/
def Place.index : Place → Nat
  | .close => 0
  | .verdict => 1
  | .pass => 2
  | .claim => 3
  | .choice => 4
  | .tally p => 5 + p.val
  | .reveal => 9
  | .open_ => 10
  | .roll => 11
  | .present => 12
  | .hello => 13

/-- The class of a place (R25). -/
def Place.cls : Place → Nat
  | .close => 1
  | .verdict => 2
  | .pass => 3
  | .claim => 4
  | .choice => 5
  | .tally _ => 6
  | .reveal => 7
  | .open_ => 8
  | .roll => 9
  | .present => 10
  | .hello => 11

/-- The place of a content. -/
def Content.place : Content → Place
  | .close _ => .close
  | .verdict .. => .verdict
  | .pass .. => .pass
  | .claim .. => .claim
  | .choice .. => .choice
  | .tally p _ => .tally p
  | .reveal _ => .reveal
  | .open_ .. => .open_
  | .roll .. => .roll
  | .present .. => .present
  | .hello .. => .hello

/-- The places a role has (R35). -/
def Role.hasPlace : Role → Place → Bool
  | .console, .close | .console, .verdict | .console, .tally _ | .console, .reveal | .console, .open_ | .console, .roll
  | .console, .hello => true
  | .team, .pass | .team, .claim | .team, .choice | .team, .present | .team, .hello => true
  | .wall, .present | .wall, .hello => true
  | _, _ => false

/-- The frame in a place. -/
def frameAt (p : Place) (q : List QFrame) : Option QFrame := q.find? fun f => f.place == p

/-- The queue without a place's frame. -/
def removeAt (p : Place) (q : List QFrame) : List QFrame := q.filter fun f => f.place != p

/-- A frame put in its place, the queue kept in class order. -/
def insertFrame (f : QFrame) : List QFrame → List QFrame
  | [] => [f]
  | g :: gs => if f.place.index < g.place.index then f :: g :: gs else g :: insertFrame f gs

/-- The frame of a place changed. -/
def modifyAt (p : Place) (f : QFrame → QFrame) (q : List QFrame) : List QFrame :=
  q.map fun g => if g.place = p then f g else g

/-- The state with another queue. -/
def setQueue (q : List QFrame) (s : State) : State := s.withLcu { s.lcu with queue := q }

/-! ### Entering a transmitter state (R51) -/

/-- Enters a transmitter state: the history takes it at its newest end and loses its oldest (R51). -/
def enterTx (t : TxState) (s : State) : State :=
  s.withLcu { s.lcu with tx := t, history := s.lcu.history.drop 1 ++ [some t], recovered := s.lcu.recovered || t == .recovering }

/-- IDLE if the queue is empty, WAITING otherwise (R41). -/
def settleTx (s : State) : State := enterTx (if s.lcu.queue.isEmpty then .idle else .waiting) s

/-! ### Offering a frame (R40) -/

/-- The four totals of a page, in team order (R169). -/
def pageTotals (s : State) (page : Nat) : Half × Half × Half × Half :=
  (BitVec.ofInt 16 (s.scu.team (4 * page + 1)).total, BitVec.ofInt 16 (s.scu.team (4 * page + 2)).total,
    BitVec.ofInt 16 (s.scu.team (4 * page + 3)).total, BitVec.ofInt 16 (s.scu.team (4 * page + 4)).total)

/-- The content that an attempt carries: check total and page totals filled from the scoreboard (R40, R168, R169). -/
def fillContent (s : State) : Content → Content
  | .verdict t m o _ => .verdict t m o (some (BitVec.ofInt 16 (checkTotalFor s t.toNat m.toNat o)))
  | .tally p _ => .tally p (some (pageTotals s p.val))
  | c => c

/-- The round number a first attempt reads: the current round, for OPEN that of the round it opens (R40). -/
def roundFor (s : State) : Content → Byte
  | .open_ number _ => number
  | _ => byteOf s.rng.round

/-- A frame as its attempt begins (R40). -/
def beginFrame (s : State) (f : QFrame) : QFrame :=
  { f with inAttempt := true, content := fillContent s f.content, round := some (f.round.getD (roundFor s f.content)) }

/-- Offers the queued frame of lowest class and begins its attempt: CONTENDING (R40, R41). -/
def offer (s : State) : State :=
  match s.lcu.queue with
  | [] => s
  | f :: rest => enterTx .contending (setQueue (beginFrame s f :: rest) s)

/-- From IDLE to WAITING; WAITING stays (R41). -/
def wait (s : State) : State := if s.lcu.tx = .idle then enterTx .waiting s else s

/-- What a newly queued frame makes of an IDLE or WAITING transmitter: it begins on an idle line, joins a start mark whose
edge is young enough, and waits otherwise (R26, R40, R41). -/
def startOrWait (s : State) : State :=
  if s.lcu.tx ≠ .idle ∧ s.lcu.tx ≠ .waiting then s
  else if lineIdle s || joinable s then offer s
  else wait s

/-! ### Hand-over (R36 to R38) -/

/-- The answers to a hand-over; ALREADY_QUEUED carries whether the queued frame is in attempt (R38), `replaced` is the
replacement of a queued CHOICE (R37). -/
inductive Answer where
  | queued
  | replaced
  | already (inAttempt : Bool)
  | dropped
  /-- the role has no such place, or the station is not at work: no block hands such a frame over (log 27) -/
  | noPlace
  deriving DecidableEq, Repr

/-- A frame fresh in its place (R36). -/
def freshFrame (c : Content) (h : Hander) : QFrame :=
  { place := c.place, content := c, round := none, attempts := 0, inAttempt := false, withdrawn := false, pending := none,
    hander := h }

/-- A queued CHOICE that takes a new content (R37). -/
def replaceContent (c : Content) (f : QFrame) : QFrame :=
  if f.inAttempt then { f with pending := some c } else { f with content := c, attempts := 0, round := none }

/-- The answer to a hand-over (R36 to R38). -/
def handAnswer (c : Content) (s : State) : Answer :=
  if s.lcu.tx.shut then .dropped
  else if ¬(s.suu.startUp.atWork ∧ s.suu.identity.role.hasPlace c.place) then .noPlace
  else match frameAt c.place s.lcu.queue with
    | none => .queued
    | some f => if c.place = .choice ∧ f.withdrawn = false then .replaced else .already f.inAttempt

/-- What a hand-over does: QUEUED puts the frame in its place and may begin an attempt; DROPPED_AT_ONCE raises TX_DROPPED,
and the hander acts on the answer (R36). -/
def handOver (c : Content) (h : Hander) (s : State) : State :=
  match handAnswer c s with
  | .queued => startOrWait (setQueue (insertFrame (freshFrame c h) s.lcu.queue) s)
  | .replaced => setQueue (modifyAt c.place (replaceContent c) s.lcu.queue) s
  | .already _ | .noPlace => s
  | .dropped => raise .txDropped s

/-! ### Tally pages (R170, R173, R174) -/

/-- The outcomes of a request for a page, with the codes of R204. -/
inductive PageOutcome where
  | queued | waiting | dirty | notHanded
  deriving DecidableEq, Repr

/-- The outcome of a request for a page (R170). -/
def pageOutcome (page : Fin 4) (s : State) : PageOutcome :=
  match handAnswer (.tally page none) s with
  | .queued | .replaced => .queued
  | .already true => .dirty
  | .already false => .waiting
  | .dropped | .noPlace => .notHanded

/-- A request for a page: handed unless the transmitter is shut; a page met in attempt is marked dirty (R170). -/
def requestPage (page : Fin 4) (s : State) : State :=
  match pageOutcome page s with
  | .queued => handOver (.tally page none) .cnf s
  | .dirty => s.withCnf { s.cnf with dirty := insertNat page.val s.cnf.dirty }
  | .waiting | .notHanded => s

/-- All four pages asked for, in page order (R174). -/
def requestAllPages (s : State) : State := requestPage 3 (requestPage 2 (requestPage 1 (requestPage 0 s)))

/-- The dirty mark of a page cleared. -/
def clearDirty (page : Nat) (s : State) : State := s.withCnf { s.cnf with dirty := s.cnf.dirty.filter (· != page) }

/-- The end of an attempt of a page: a dirty mark is cleared, and the page asked for again if it has left the queue (R173). -/
def pageAttemptEnded (page : Fin 4) (left : Bool) (s : State) : State :=
  if s.cnf.dirty.contains page.val then
    if left then requestPage page (clearDirty page.val s) else clearDirty page.val s
  else s

/-! ### What the handers do (R11, R65, R68, R71, R165, R166, R192) -/

/-- How a frame leaves the queue. `emptied` is a drop by the emptying of the queue (R43, R49). -/
inductive Fate where
  | taken | withdrawn | droppedAfterFour | emptied
  deriving DecidableEq, Repr

/-- The panel driver is told of a dropped own frame: the 2 s flash starts, or starts again (R184). -/
def reportDrop (s : State) : State := s.withPnl { s.pnl with flash := .running Config.flashUs }

/-- The press record replaced. -/
def setRecord (r : PressRecord) (s : State) : State := s.withIcu { s.icu with record := r }

/-- Own CLAIM dropped: DROPPED told, or dropped at once (R64, R65). -/
def claimDropped (s : State) : State :=
  reportDrop (setRecord { s.icu.record with ownClaim := .dropped, claimStamp := none } s)

/-- Own CHOICE dropped: DROPPED told, or dropped at once; the pending key becomes 0, as R71 has it for both (log 36). -/
def choiceDropped (s : State) : State := reportDrop (setRecord { s.icu.record with pendingKey := 0 } s)

/-- JOINING becomes JOINED (R10, R11, R14, R49; log 24). -/
def enterJoined (s : State) : State :=
  if s.suu.startUp = .joining then s.withSuu { s.suu with startUp := .joined, joinWait := .off } else s

/-- A TIMEOUT VERDICT for the turn in progress, handed by the console function (R166). -/
def handTimeout (s : State) : State :=
  match s.rng.answering with
  | none => s
  | some team =>
    let c := Content.verdict (byteOf s.rng.turn) (byteOf team) .timeout none
    match handAnswer c s with
    | .queued =>
      let t := handOver c .cnf s
      t.withCnf { t.cnf with verdictPending := some s.rng.turn, verdictKind := .automatic }
    | .replaced | .already _ | .noPlace | .dropped => handOver c .cnf s

/-- Does the marker name the turn in progress? -/
def markerCurrent (s : State) : Bool := s.cnf.verdictPending == some s.rng.turn && s.rng.answering.isSome

/-- The verdict-pending marker cleared (R165). The pending verdict kind keeps its last value, which the rules leave open: DESIGN
CHOICE (log 41). -/
def clearMarker (s : State) : State := s.withCnf { s.cnf with verdictPending := none }

/-- The console's VERDICT dropped: the marker is cleared; a HOST verdict's turn has its clock running again, an AUTOMATIC one
dropped after four attempts is handed again in HELD (R86, R165, R166; log 15). -/
def verdictDropped (emptied : Bool) (s : State) : State :=
  match s.cnf.verdictKind with
  | .host =>
    if markerCurrent s ∧ s.rng.phase = .turn then (clearMarker s).withRng { s.rng with answerRunning := true }
    else clearMarker s
  | .automatic =>
    if markerCurrent s ∧ s.rng.phase = .held ∧ emptied = false then handTimeout (clearMarker s) else clearMarker s

/-- The hander is told that its frame has left the queue. -/
def told (fate : Fate) (f : QFrame) (s : State) : State :=
  match f.place, fate with
  | .claim, .withdrawn => setRecord { s.icu.record with ownClaim := .none, claimStamp := none } s
  | .claim, .droppedAfterFour | .claim, .emptied => claimDropped s
  | .choice, .withdrawn => setRecord { s.icu.record with pendingKey := 0 } s
  | .choice, .droppedAfterFour | .choice, .emptied => choiceDropped s
  | .pass, .droppedAfterFour | .pass, .emptied => reportDrop s
  | .verdict, .droppedAfterFour => verdictDropped false s
  | .verdict, .emptied => verdictDropped true s
  | .tally p, .emptied => clearDirty p.val s
  | .hello, _ => enterJoined s
  | _, _ => s

/-! ### Ends of attempts (R37, R39, R41 to R43) -/

/-- The ends of an attempt. -/
inductive AttemptEnd where
  | taken | lost | mismatch | unheard | objected | lineFault
  deriving DecidableEq, Repr

/-- Is the end counted (R42)? -/
def AttemptEnd.counted : AttemptEnd → Bool
  | .taken | .lost => false
  | .mismatch | .unheard | .objected | .lineFault => true

/-- The frame in attempt. -/
def attempted (s : State) : Option QFrame := s.lcu.queue.find? QFrame.inAttempt

/-- The count of a frame once the end of its attempt has been counted (R42). -/
def countAfter (e : AttemptEnd) (f : QFrame) : Nat := if e.counted then f.attempts + 1 else f.attempts

/-- The TALLY console function is told of the end of a page's attempt (R38). -/
def tellPage (f : QFrame) (left : Bool) (s : State) : State :=
  match f.place with
  | .tally p => pageAttemptEnded p left s
  | _ => s

/-- The frame leaves the queue, and its hander is told. -/
def leave (fate : Fate) (f : QFrame) (s : State) : State :=
  tellPage f true (told fate f (setQueue (removeAt f.place s.lcu.queue) s))

/-- The end of frame f's attempt, without the transmitter's own move: marks, pending content and counts resolved (R37, R39,
R42, R43). -/
def resolveAttempt (e : AttemptEnd) (f : QFrame) (s : State) : State :=
  if e = .taken then
    match f.pending with
    | some c =>
      if f.withdrawn then leave .taken f s
      else setQueue (modifyAt f.place (fun _ => freshFrame c f.hander) s.lcu.queue) s
    | none => leave .taken f s
  else if f.withdrawn then leave .withdrawn f s
  else match f.pending with
    | some c =>
      setQueue
        (modifyAt f.place
          (fun g => { g with content := c, pending := none, attempts := 0, round := none, inAttempt := false })
          s.lcu.queue) s
    | none =>
      if e.counted ∧ Config.maxAttempts ≤ countAfter e f then leave .droppedAfterFour f (raise .txDropped s)
      else
        tellPage f false
          (setQueue (modifyAt f.place (fun g => { g with inAttempt := false, attempts := countAfter e f }) s.lcu.queue) s)

/-- The end of the attempt in progress, if there is one. -/
def resolve (e : AttemptEnd) (s : State) : State :=
  match attempted s with
  | none => s
  | some f => resolveAttempt e f s

/-- The end of an attempt other than by a line fault: IDLE or WAITING follows (R41). -/
def endAttempt (e : AttemptEnd) (s : State) : State := settleTx (resolve e s)

/-! ### Withdrawal (R39) -/

/-- A withdrawal of a place's frame. -/
def withdraw (p : Place) (s : State) : State :=
  match frameAt p s.lcu.queue with
  | none => s
  | some f =>
    if f.inAttempt then setQueue (modifyAt p (fun g => { g with withdrawn := true }) s.lcu.queue) s
    else
      let t := told .withdrawn f (setQueue (removeAt p s.lcu.queue) s)
      if t.lcu.tx = .waiting ∧ t.lcu.queue.isEmpty = true then enterTx .idle t else t

/-- The round engine's withdrawal of the station's own CLAIM, CHOICE and PASS (R77, R95). -/
def withdrawOwn (s : State) : State := withdraw .pass (withdraw .choice (withdraw .claim s))

/-! ### HALTED and MUTED (R49, R50, R14) -/

/-- The line controller's three timers stopped. -/
def stopTimers (s : State) : State :=
  s.withLcu { s.lcu with recoveryDeadline := .off, recoveryQuiet := .off, faultMemory := .off }

/-- A frame dropped by the emptying of the queue: TX_DROPPED raised, its hander told (R43). -/
def dropFrame (s : State) (f : QFrame) : State := told .emptied f (raise .txDropped s)

/-- The queue emptied, every frame dropped (R49). -/
def emptyQueue (s : State) : State := s.lcu.queue.foldl dropFrame (setQueue [] s)

/-- Entry to HALTED; a station in JOINING enters JOINED at once (R49). -/
def enterHalted (s : State) : State := enterJoined (emptyQueue (stopTimers (raise .halted (enterTx .halted s))))

/-- Entry to MUTED of a transmitter that is not HALTED (R50). -/
def enterMuted (s : State) : State :=
  if s.lcu.tx = .halted then s else emptyQueue (stopTimers (enterTx .muted s))

/-- The muted marker is set (R13, R14); set already, nothing changes. -/
def mute (s : State) : State :=
  if s.suu.muted then s else enterJoined (enterMuted (s.withSuu { s.suu with muted := true }))

/-! ### The fault log (R51 to R53) -/

/-- A record as the line controller writes it, its history copied before the entry that follows (R51, R52). -/
def faultRecord (cause : FaultCause) (frame : Option (Nat × Nat)) (s : State) : FaultRec :=
  { cause := cause, escalated := cause != .stuck, history := s.lcu.history, round := s.rng.round, clock := s.rck.count,
    cls := (frame.map Prod.fst).getD 0, attempts := (frame.map Prod.snd).getD 0 }

/-- A record appended; a fifth discards the oldest (R52). -/
def appendRecord (r : FaultRec) (log : List FaultRec) : List FaultRec :=
  if log.length < Config.faultLogSize then log ++ [r] else (log ++ [r]).drop 1

/-- Writes a fault log record. -/
def writeRecord (cause : FaultCause) (frame : Option (Nat × Nat)) (s : State) : State :=
  s.withLcu { s.lcu with log := appendRecord (faultRecord cause frame s) s.lcu.log }

/-- The most recent STUCK record in a log, newest first, is marked escalated (R53). -/
def escalateNewest : List FaultRec → List FaultRec
  | [] => []
  | r :: rs => if r.cause = .stuck then { r with escalated := true } :: rs else r :: escalateNewest rs

/-- The STUCK record of the recovery that led to HALTED is marked escalated (R53). -/
def escalate (s : State) : State := s.withLcu { s.lcu with log := (escalateNewest s.lcu.log.reverse).reverse }

end Sys2Proof.Machine
end

