-- ==== Sys2Proof/Machine/Drive.lean ====
section
/-! DEFINITION. What the station drives on LTX (02): the cells of its own frame, the slots of others' frames, objection runs;
and the refresh of the outputs that every step ends with. -/

namespace Sys2Proof.Machine

/-! ### The frame this station sends -/

/-- The payload of a queued content; totals not yet filled count as 0, which no attempt carries (R40). -/
def payloadOf : Content → Payload
  | .close p => .close p
  | .verdict t m o c => .verdict t m (outcomeCode o) (c.getD 0)
  | .pass t m => .pass t m
  | .claim s m => .claim s m
  | .choice s k m => .choice s k m
  | .tally p totals =>
    let x := totals.getD (0, 0, 0, 0)
    .tally (byteOf p.val) x.1 x.2.1 x.2.2.1 x.2.2.2
  | .reveal k => .reveal k
  | .open_ _ b => .open_ b
  | .roll i w => .roll i w
  | .present r m i f => .present r m i f
  | .hello r m t => .hello r m t

/-- The frame that a queued frame puts on the line, from this station's desk (R2, R23). -/
def frameOf (s : State) (f : QFrame) : Frame :=
  { desk := BitVec.ofNat 6 s.suu.identity.desk, round := f.round.getD 0, body := payloadOf f.content }

/-- The bits the station sends in its attempt, first contention cell first; none without an attempt. -/
def sentBits (s : State) : List Bool := match attempted s with
  | some f => wireBits (frameOf s f)
  | none => []

/-! ### Pulses (R16, R17) -/

/-- The pulse that sends a bit, in nanoseconds from the cell's boundary (R17). -/
def bitPulse (b : Bool) : Nat := if b then Config.oneNs else Config.zeroNs

/-- The start mark, which runs into the first contention cell's pulse without a break (R20). -/
def startPulse (first : Bool) : Nat := Config.startMarkNs + bitPulse first

/-- Does the station drive the line at all (R16, R45, R49, R50)? -/
def drivesSlots (s : State) : Bool := s.suu.startUp.atWork && s.lcu.tx.working

/-! ### The station's own frame (R17, R20, R26 to R28) -/

/-- What a contending or sending station drives: the start mark into the first cell until that cell has been read, then the
pulse of each cell from the edge that opens it (R17, R20). -/
def sendDrive (s : State) : Option Nat :=
  if s.lif.cells = [] then ((sentBits s)[0]?).map startPulse
  else if s.lif.opened then ((sentBits s)[s.lif.cells.length]?).map bitPulse
  else none

/-- What the sender drives in its slots: a short pulse opens each, and the objection slot is driven as an objection unless the ack
slot read 0 (R29, R31). -/
def senderSlotDrive (s : State) : Option Nat :=
  if s.lif.opened then
    some (if s.lif.ack = none ∨ s.lif.ack = some .zero then bitPulse true else Config.zeroNs)
  else none

/-! ### The slots of others' frames, and objection runs (R29 to R31) -/

/-- Does a receiver that drives slots drive the ack slot: it has read every cell without a decode error (R29)? -/
def acks : Reception → Bool
  | .clean _ => true
  | _ => false

/-- Does a receiver that drives slots drive the objection slot: it holds a decode error, or its ack slot read as a width error
(R31)? -/
def objects (ack : CellReading) : Reception → Bool
  | .errored _ _ => true
  | .clean _ => ack == .widthError
  | .unplaced => false

/-- What a receiver drives: ack and objection in the slots it has reached, every edge of an objection run (R29 to R31). -/
def receiverDrive (s : State) : Option Nat :=
  let drives : Bool := s.lif.opened && match s.lif.decode, s.lif.ack with
    | .hunt, _ => s.lif.run
    | .frame, _ => false
    | .tail, none => acks (receive s.lif.cells)
    | .tail, some a => objects a (receive s.lif.cells)
  if drives then some Config.zeroNs else none

/-- What the station drives on LTX: for so many nanoseconds from the edge or boundary that began the present pulse, or nothing
(R16). -/
def driveOf (s : State) : Option Nat :=
  if drivesSlots s then
    match s.lcu.tx with
    | .contending | .sending => sendDrive s
    | .slots => senderSlotDrive s
    | .idle | .waiting | .recovering | .halted | .muted => receiverDrive s
  else none

/-! ### The refresh of the outputs -/

/-- The outputs brought into line with the state at the end of a step: lamps, display, IRQ_N, LTX (R16, R176 to R186, R202).
No block reads them. -/
def refresh (s : State) : State :=
  ((s.withPnl (panelOf s)).withCmp { s.cmp with irqN := irqLevel s.cmp.flags s.cmp.mask }).withLtx (driveOf s)

end Sys2Proof.Machine
end

