-- ==== Sys2Proof/Machine/Round.lean ====
section
/-! DEFINITION. The round engine's operations (05): grants, ends of turns, the ENDED entry, full verdicts, settling out. -/

namespace Sys2Proof.Machine

/-- The phase set. -/
def setPhase (p : Phase) (s : State) : State := s.withRng { s.rng with phase := p }

/-! ### The end of a round (R95) -/

/-- Entry to ENDED: the round clock is held, the answer clock stops, own CLAIM, CHOICE and PASS are withdrawn, ROUND_ENDED is
raised (R95). -/
def enterEnded (s : State) : State :=
  raise .roundEnded
    (withdrawOwn
      ((s.withRng { s.rng with phase := .ended, answerRunning := false }).withRck { s.rck with running := false }))

/-! ### Grants and settling out (R84, R92, R106) -/

/-- Has the settle deadline of an entry been reached, or does saturation stand for it (R101)? -/
def deadlineReached (s : State) (e : Entry) : Bool :=
  s.rng.saturated || decide (settleDeadlineOf s.rng e ≤ s.rck.count)

/-- The grant conditions of R106. -/
def grantDue (s : State) : Bool :=
  s.rng.phase == .live && s.rng.format == .buzz && !anyAnswering s.clt.entries &&
    (waitingHead s.clt.entries).any (deadlineReached s)

/-- The grant to the head of the waiting part (R84, R107). -/
def grant (s : State) : State :=
  match waitingHead s.clt.entries with
  | none => s
  | some e =>
    raise .turnGranted
      ((s.withClt ⟨grantHead s.clt.entries⟩).withRng
        { s.rng with turn := s.rng.turn + 1, answering := some e.team, answerClock := s.rng.answerTime, answerRunning := true,
                     phase := .turn })

/-- The settling-out conditions of R92. -/
def settleOutDue (s : State) : Bool :=
  s.rng.phase == .live && s.rng.format == .buzz && s.rng.closed && !anyOpen s.clt.entries &&
    (s.rng.saturated || decide (s.rng.closePoint + s.rng.settleTicks ≤ s.rck.count))

/-- Must a CHOICE round leave LIVE for CLOSING (R93)? -/
def closingDue (s : State) : Bool := s.rng.phase == .live && s.rng.format == .choice && s.rng.closed

/-- What follows at the same instant from a change of phase, list or closed flag: CLOSING of a choice round, a grant, or
settling out (R84, R92, R93). -/
def advance (s : State) : State :=
  if closingDue s then setPhase .closing s
  else if grantDue s then grant s
  else if settleOutDue s then enterEnded s
  else s

/-! ### The end of a turn (R87) -/

/-- Does an outcome end the round (R87, R91)? -/
def endsRound (o : TurnOutcome) (turn : Nat) : Bool := o == .right || o == .void || decide (Config.maxTurn ≤ turn)

/-- The phase after a turn's end: ENDED stays, a round-ending outcome enters ENDED, any other returns to LIVE (R87, R90). -/
def phaseAfterTurn (o : TurnOutcome) (s : State) : State :=
  if s.rng.phase = .ended then s
  else if endsRound o s.rng.turn then enterEnded s
  else setPhase .live s

/-- The end of the turn in progress, which is team t's: clock to 0, the entry's status, no answering team, TURN_ENDED
(R87, R109). -/
def closeTurn (t : Nat) (o : TurnOutcome) (s : State) : State :=
  raise .turnEnded
    ((s.withClt ⟨endEntry t o s.clt.entries⟩).withRng
      { s.rng with answerClock := 0, answerRunning := false, answering := none })

/-- A turn ended by a PASS frame: it scores nothing (R88, R145). -/
def endTurnByPass (t : Nat) (s : State) : State := phaseAfterTurn .pass (closeTurn t .pass s)

/-! ### Verdicts (R89, R90, R110) -/

/-- The conditions of R89, first that applies. -/
inductive VerdictHandling where
  | ignored | checkOnly
  | full (o : TurnOutcome)
  deriving DecidableEq, Repr

/-- How much of a VERDICT applies (R89). -/
def verdictHandling (r : Rng) (round turn team code : Nat) : VerdictHandling :=
  if isTeam team = false then .ignored
  else if r.phase = .unsynced ∨ round ≠ r.round then .checkOnly
  else if r.format = .choice ∨ r.phase = .reading then .checkOnly
  else if turn < 1 ∨ 16 < turn then .checkOnly
  else if turn < r.turn ∨ (turn = r.turn ∧ r.answering = none) then .checkOnly
  else match outcomeOfCode code with
    | none => .checkOnly
    | some o => .full o

/-- Is the claim list in step with a full verdict (R110)? -/
def inStep (r : Rng) (turn team : Nat) : Bool := r.answering == some team && r.turn == turn

/-- The alignment of a list out of step, with DIVERGED (R110 to R113). -/
def align (turn team : Nat) (s : State) : State :=
  if inStep s.rng turn team then s
  else raise .diverged (s.withClt ⟨alignEntries s.rng s.rck.count team s.clt.entries⟩)

/-- Turn t made team T's: aligned, turn number and answering team set, then ended and scored, the check total treated
(R90, R145, R150). -/
def fullVerdict (turn team : Nat) (o : TurnOutcome) (check : Int) (s : State) : State :=
  let a := align turn team s
  let b := closeTurn team o (a.withRng { a.rng with turn := turn, answering := some team })
  phaseAfterTurn o (takeCheckTotal team check (scoreTurn turn team o b))

end Sys2Proof.Machine
end

