-- ==== Sys2Proof/Machine/StartUp.lean ====
section
/-! DEFINITION. Resets and start-up (01): POWER_ON_RESET, RESET_N, LOADING_READ_END, JOINING_IDLE_WAIT_END, STORE_WRITE_END. -/

namespace Sys2Proof.Machine

/-- The outcome of every meaning: a step whose event can occur in the state has its effect, and the outputs follow; one
whose event cannot occur leaves the state as it is (log 6). -/
def when (occurs : Bool) (f : State → State) (s : State) : Host.Outcome State Fault Refusal :=
  if occurs then .next (refresh (f s)) else .next s

/-! ### Resets (R15, R22, R54, R61, R72, R73, R98, R121, R138, R175, R176, R187, R196) -/

/-- A desk input after a reset: the level at the pin is not the part's to change. -/
def Input.afterReset (i : Input) : Input := { Input.reset with low := i.low }

/-- The input capture unit after a reset. -/
def Icu.afterReset (x : Icu) : Icu :=
  { Icu.reset with
    buzz := x.buzz.afterReset, keyA := x.keyA.afterReset, keyB := x.keyB.afterReset, keyC := x.keyC.afterReset,
    keyD := x.keyD.afterReset }

/-- The port after a reset: WAIT_SELECT if CS_N is high, WAIT_RELEASE if it is low, the reset reply held (R196). In
WAIT_RELEASE SDO is taken as released, which the spec says of CS_N high alone: DESIGN CHOICE (log 37). -/
def Cmp.afterReset (cause : ResetCause) (csN : Bool) : Cmp :=
  { Cmp.reset with transfer := if csN then .waitSelect else .waitRelease, csN := csN, heldReply := resetReply cause }

/-- A reset: every block takes its reset state, the straps are sampled, and what a reset does not touch is kept: the store's
rows, the levels at the pins. LTX is released, whatever the station was driving (R1, R15, R16). -/
def resetState (cause : ResetCause) (role1 role0 csN : Bool) (s : State) : State :=
  { State.reset with
    suu := { Suu.reset with strap1 := role1, strap0 := role0 }
    sto := { Sto.reset with row0 := s.sto.row0, row1 := s.sto.row1, row2 := s.sto.row2, row3 := s.sto.row3 }
    lif := { Lif.reset with dominant := s.lif.dominant }
    icu := s.icu.afterReset
    cmp := Cmp.afterReset cause csN
    pending := s.pending
    free := s.free }

/-- POWER_ON_RESET (R15). -/
def execPowerOnReset (role1 role0 : Bool) (s : State) : Host.Outcome State Fault Refusal :=
  .next (resetState .powerOn role1 role0 s.cmp.csN s)

/-- RESET_N (R15). -/
def execResetN (role1 role0 : Bool) (s : State) : Host.Outcome State Fault Refusal :=
  .next (resetState .resetN role1 role0 s.cmp.csN s)

/-! ### The end of LOADING (R1 to R5, R10, R61, R138) -/

/-- The role that the sampled straps give; high and high is not accepted (R1). -/
def strapRole (role1 role0 : Bool) : Role :=
  match role1, role0 with
  | false, false => .team
  | false, true => .console
  | true, false => .wall
  | true, true => .none

/-- Does the desk number suit the role (R3)? -/
def deskSuits : Role → Nat → Bool
  | .team, d => decide (1 ≤ d) && decide (d ≤ 48)
  | .console, d => d == 0
  | .wall, d => decide (56 ≤ d) && decide (d ≤ 63)
  | .none, _ => false

/-- The identity check, the first failure deciding the reason (R3). -/
def identityReason (role : Role) (desk team : Nat) : FaultReason :=
  if role = .none then .badRole
  else if deskSuits role desk = false then .badDesk
  else if role = .team ∧ isTeam team = false then .badTeam
  else .none

/-- The identity record filled from straps and store (R2, R4). -/
def fillIdentity (s : State) : Identity :=
  let role := strapRole s.suu.strap1 s.suu.strap0
  { role := role, desk := rowDesk s.sto.row0, team := if role = .team then rowTeam s.sto.row0 else 0, tag := s.sto.row3,
    filterMs := rowFilterMs s.sto.row1, passHold := rowPassHold s.sto.row1, idleDisplay := rowIdleDisplay s.sto.row2,
    blink := rowBlink s.sto.row2, reason := identityReason role (rowDesk s.sto.row0) (rowTeam s.sto.row0) }

/-- A filter that takes the state matching its input's level, without a press (R61). -/
def Input.sync (i : Input) : Input := { i with filter := if i.low then .pressed none else .released, timer := .off }

/-- Every filter synchronised at entry to JOINING (R61). -/
def Icu.sync (x : Icu) : Icu :=
  { x with buzz := x.buzz.sync, keyA := x.keyA.sync, keyB := x.keyB.sync, keyC := x.keyC.sync, keyD := x.keyD.sync }

/-- The 5 ms wait of JOINING: it runs while the line is recessive (R10). -/
def startJoinWait (dominant : Bool) : Timer := if dominant then .off else .running Config.joinWaitUs

/-- The accepted identity: JOINING, filters synchronised, the console's scoreboard confirmed (R3, R10, R61, R138). -/
def acceptIdentity (id : Identity) (s : State) : State :=
  let t := (s.withSuu { s.suu with startUp := .joining, identity := id, joinWait := startJoinWait s.lif.dominant }).withIcu
    s.icu.sync
  if id.role = .console then confirmAll t else t

/-- The end of the LOADING read: the flag clears, the record is filled and checked (R3, R5). -/
def endLoading (s : State) : State :=
  let t := s.withSto { s.sto with busy := false }
  let id := fillIdentity s
  if id.reason = .none then acceptIdentity id t else t.withSuu { t.suu with startUp := .configFault, identity := id }

/-- LOADING_READ_END (R5). -/
def execLoadingReadEnd (s : State) : Host.Outcome State Fault Refusal := when (s.suu.startUp == .loading) endLoading s

/-! ### The end of the quiet wait (R10, R11) -/

/-- The HELLO of this station (R11). -/
def helloContent (s : State) : Content :=
  .hello (roleCode s.suu.identity.role) (byteOf s.suu.identity.team) s.suu.identity.tag

/-- The 5 ms have run: HELLO is handed, or JOINED is entered at once (R10). -/
def endJoinWait (s : State) : State :=
  let t := s.withSuu { s.suu with joinWait := .off }
  if t.lcu.tx.shut then enterJoined t else handOver (helloContent t) .suu t

/-- JOINING_IDLE_WAIT_END (R10). -/
def execJoiningIdleWaitEnd (s : State) : Host.Outcome State Fault Refusal :=
  when (s.suu.startUp == .joining && s.suu.joinWait.on) endJoinWait s

/-! ### The end of a store write (R9) -/

/-- The store with one row replaced. -/
def Sto.setRow (x : Sto) (row : Nat) (value : Half) : Sto :=
  match row with
  | 0 => { x with row0 := value }
  | 1 => { x with row1 := value }
  | 2 => { x with row2 := value }
  | 3 => { x with row3 := value }
  | _ => x

/-- The value of a row 0..3. -/
def Sto.getRow (x : Sto) (row : Nat) : Option Half :=
  match row with
  | 0 => some x.row0
  | 1 => some x.row1
  | 2 => some x.row2
  | 3 => some x.row3
  | _ => none

/-- The store once its 8 ms have run. -/
def Sto.finish (x : Sto) : Sto :=
  let y := match x.write with
    | some (row, value) => x.setRow row value
    | none => x
  { y with busy := false, write := none, timer := .off }

/-- STORE_WRITE_END (R9). -/
def execStoreWriteEnd (s : State) : Host.Outcome State Fault Refusal :=
  when (s.sto.timer.on && s.sto.write.isSome) (fun s => raise .storeDone (s.withSto s.sto.finish)) s

end Sys2Proof.Machine
end

