-- ==== Sys2Proof/Machine/LineEvents.lean ====
section
/-! DEFINITION. The line and the station's own attempts (02, 03): level changes, idle, start marks, contention, slots, discarded
frames, objection runs. -/

namespace Sys2Proof.Machine

/-! ### The decode state -/

/-- HUNT with idle seen clear, nothing kept of a frame (R19, R30, R31). -/
def Lif.hunting (x : Lif) : Lif :=
  { x with decode := .hunt, idleSeen := false, cells := [], opened := false, since := 0, ack := none }

/-- The end of a frame at this station: HUNT, idle seen clear (R19, R31). -/
def frameEnd (s : State) : State := (s.withLif s.lif.hunting).withLcu { s.lcu with domFrame := none }

/-- In a frame, with these cells read. -/
def inFrame (d : Decode) (cells : List CellReading) (s : State) : State :=
  s.withLif { s.lif with decode := d, idleSeen := false, cells := cells }

/-- The decode state inside a frame: TAIL once its last CRC cell has been read, FRAME before (R29). -/
def decodeAt (cells : List CellReading) : Decode := if placedCells cells = some cells.length then .tail else .frame

/-- In a frame as a receiver that has driven until now: it stops with the cell just read (R27, R28), in TAIL if that was the last
CRC cell (R29). -/
def stopDriving (cells : List CellReading) (s : State) : State :=
  s.withLif { s.lif with decode := decodeAt cells, idleSeen := false, cells := cells, opened := false }

/-- A receiver leaves the frame: an objection run begins, from the next dominant edge on, or a silent receiver returns to HUNT
(R30). -/
def leaveFrame (s : State) : State := s.withLif { s.lif.hunting with run := drivesSlots s }

/-- Is the line interface inside a frame? -/
def Decode.inside : Decode → Bool
  | .hunt => false
  | .frame | .tail => true

/-! ### LINE_LEVEL_CHANGE (R10, R19, R20, R21, R45) -/

/-- The class and count of the frame in attempt (R52). -/
def attemptTag (s : State) : Option (Nat × Nat) := (attempted s).map fun f => (f.place.cls, f.attempts)

/-- The last cell read as a width error. -/
def markWidthError (cells : List CellReading) : List CellReading :=
  if cells = [] then [] else cells.dropLast ++ [.widthError]

/-- A dominant edge inside a frame, `t` nanoseconds after the last boundary: an early edge makes the cell in which it falls a
width error and opens none; the next cell opens later than 7.0 µs and no later than 9.0 µs after the boundary; an edge later
still finds a missing cell, which its own row reports (R17, R18). -/
def Lif.edgeInFrame (x : Lif) (t : Nat) : Lif :=
  if t ≤ Config.earlyEdgeNs then
    if x.ack.isSome then { x with since := t, opened := false, ack := some .widthError }
    else { x with since := t, opened := false, cells := markWidthError x.cells }
  else if t ≤ Config.lateEdgeNs then { x with since := 0, opened := true }
  else { x with since := t, opened := false }

/-- A dominant edge after `ns` recessive nanoseconds, at the cells; in HUNT an objection run answers it (R17, R18, R30). -/
def Lif.edge (x : Lif) (ns : Nat) : Lif :=
  match x.decode with
  | .hunt => { x with opened := x.run }
  | .frame | .tail => x.edgeInFrame (x.since + ns)

/-- Is the station the sender of the frame in its slots? -/
def inSlots (s : State) : Bool := s.lcu.tx == .slots

/-- Has the sender's ack slot not come by an edge so long after the last boundary: is it missing (R18)? A receiver's missing cell
has a row of its own (R30). -/
def missesAck (t : Nat) (s : State) : Bool :=
  inSlots s && s.lif.decode == .tail && s.lif.ack.isNone && decide (Config.lateEdgeNs < t)

/-- A dominant edge after `ns` recessive nanoseconds at this station. After a missing ack slot the sender still has its
objection slot to drive (R31): the edge is reckoned from the boundary that was due one cell after the last (R18; log 40). -/
def edgeAt (ns : Nat) (s : State) : Lif :=
  if missesAck (s.lif.since + ns) s then
    { s.lif with ack := some .missing }.edgeInFrame (s.lif.since + ns - Config.cellNs)
  else s.lif.edge ns

/-- The line becomes dominant after `ns` nanoseconds: the quiet waits stop, the frame in attempt is noted for the fault log;
while HUNT is held the count toward idle starts anew (R10, R20, R45, R52; log 20, log 21). -/
def lineDominant (ns : Nat) (s : State) : State :=
  ((s.withLif
      { edgeAt ns s with
        dominant := true, edgeNew := true, idleSeen := s.lif.idleSeen && s.suu.startUp.atWork }).withLcu
      { s.lcu with recoveryQuiet := .off, domFrame := attemptTag s }).withSuu { s.suu with joinWait := .off }

/-- Is the station in the quiet wait of JOINING, its HELLO not yet queued (R10)? -/
def awaitsQuiet (s : State) : Bool := s.suu.startUp == .joining && (frameAt .hello s.lcu.queue).isNone

/-- The pulse of a cell, of the dominance that ends: the first contention cell's boundary lies 16.0 µs after the start mark's
edge (R17, R20). -/
def Lif.pulseOf (x : Lif) (ns : Nat) : Nat :=
  if x.decode = .frame ∧ x.cells = [] then ns - Config.startMarkNs else ns

/-- The reading of a cell of the frame; the last CRC cell read, the line interface is in TAIL (R18, R29). -/
def Lif.readFrameCell (x : Lif) (reading : CellReading) : Lif :=
  { x with cells := x.cells ++ [reading], decode := decodeAt (x.cells ++ [reading]) }

/-- The pulse that ends after so many nanoseconds is read, if it is that of a cell: a cell of the frame, or the ack slot; the
reading of the objection slot ends the frame, by a row of its own (R18, R29, R31). -/
def Lif.readPulse (x : Lif) (pulse : Nat) : Lif :=
  if x.opened = false then x
  else match x.decode, x.ack with
    | .frame, _ => x.readFrameCell (readCell (.pulse pulse))
    | .tail, none => { x with ack := some (readCell (.pulse pulse)) }
    | .tail, some _ | .hunt, _ => x

/-- The line returns to recessive after `ns` dominant nanoseconds, at the cells. -/
def Lif.fall (x : Lif) (ns : Nat) : Lif :=
  { x.readPulse (x.pulseOf ns) with
    opened := false, since := if x.decode = .hunt then x.since else x.since + x.pulseOf ns }

/-- The line returns to recessive after `ns` nanoseconds: the cell is read, a start mark not recognised is a broken start, the
quiet waits start (R10, R18, R20, R21, R45). -/
def lineRecessive (ns : Nat) (s : State) : State :=
  ((s.withLif
      { s.lif.fall ns with
        dominant := false, faultFound := false, edgeNew := false
        idleSeen := s.lif.idleSeen && s.lif.decode != .hunt }).withLcu
      { s.lcu with
        recoveryQuiet := if s.lcu.tx = .recovering then .running Config.recoveryQuietUs else .off
        domFrame := none }).withSuu
    { s.suu with joinWait := if awaitsQuiet s then .running Config.joinWaitUs else .off }

/-- LINE_LEVEL_CHANGE (R19). -/
def execLineLevelChange (change : LevelChange) (s : State) : Host.Outcome State Fault Refusal :=
  match change with
  | .toDominant ns => when (!s.lif.dominant) (lineDominant ns) s
  | .toRecessive ns => when s.lif.dominant (lineRecessive ns) s

/-- More than 1.0 µs goes by with no command waiting: the line's edge is too old to be joined (R26; log 10). -/
def edgeAges (s : State) : State := s.withLif { s.lif with edgeNew := false }

/-! ### LINE_IDLE (R19, R30, R31, R40) -/

/-- The line reaches idle: idle seen is set, an objection run ends, an attempt left in SLOTS ends as OBJECTED, and the frame of
lowest class is offered (R19, R30, R31, R40). -/
def reachIdle (s : State) : State :=
  let t := s.withLif { s.lif with idleSeen := true, run := false }
  let u := if t.lcu.tx = .slots then endAttempt .objected t else t
  if u.lcu.tx = .waiting then offer u else u

/-- LINE_IDLE (R19). -/
def execLineIdle (s : State) : Host.Outcome State Fault Refusal :=
  when (s.lif.decode == .hunt && !s.lif.dominant) reachIdle s

/-! ### START_MARK_RECOGNIZED (R20, R22) -/

/-- A start mark recognised: FRAME, the dominance running on into the first contention cell (R20). -/
def beginReceiving (s : State) : State :=
  s.withLif { s.lif with decode := .frame, idleSeen := false, cells := [], opened := true, since := 0, ack := none }

/-- START_MARK_RECOGNIZED (R20). -/
def execStartMarkRecognized (s : State) : Host.Outcome State Fault Refusal :=
  when (s.suu.startUp.atWork && edgePending s) beginReceiving s

/-! ### Contention and sending (R27, R28, R34) -/

/-- The frame of the fault log follows a counted MISMATCH under the present dominance, and is none after LOST (R52; log 20). -/
def retag (e : AttemptEnd) (s : State) : Option (Nat × Nat) :=
  if e = .mismatch then s.lcu.domFrame.bind fun _ => (attempted s).map fun f => (f.place.cls, countAfter e f) else none

/-- The attempt ends before the slots, and the fault log's frame follows. -/
def breakAttempt (e : AttemptEnd) (s : State) : State :=
  endAttempt e (s.withLcu { s.lcu with domFrame := retag e s })

/-- Has the station lost arbitration in this cell: it sends 1 there (R27)? -/
def canLose (cell : Nat) (s : State) : Bool :=
  s.lcu.tx == .contending && decide (cell < contentionCells) && (sentBits s)[cell]? == some true

/-- A receiver from the next cell on, with the cells read so far (R27). -/
def loseArbitration (cell : Nat) (s : State) : State :=
  breakAttempt .lost (stopDriving (cleanCells ((sentBits s).take cell) ++ [.zero]) s)

/-- ARBITRATION_LOST (R27). -/
def execArbitrationLost (cell : Nat) (s : State) : Host.Outcome State Fault Refusal :=
  when (canLose cell s) (loseArbitration cell) s

/-- The tenth contention cell has ended with the station still driving (R27). -/
def winArbitration (s : State) : State :=
  enterTx .sending (inFrame .frame (cleanCells ((sentBits s).take contentionCells)) s)

/-- ARBITRATION_WON (R27). -/
def execArbitrationWon (s : State) : Host.Outcome State Fault Refusal := when (s.lcu.tx == .contending) winArbitration s

/-- Is this reading of a cell a bit mismatch: in contention a 0 read after a 1 sent is a lost arbitration instead
(R27, R28)? -/
def mismatches (cell : Nat) (reading : CellReading) (s : State) : Bool :=
  match (sentBits s)[cell]? with
  | none => false
  | some b =>
    reading != .ofBit b &&
      ((s.lcu.tx == .contending && decide (cell < contentionCells) && !(b && reading == .zero)) ||
        (s.lcu.tx == .sending && decide (contentionCells ≤ cell)))

/-- A bit mismatch: the attempt ends, and the station is a receiver with that cell as read, or leaves the frame at once
(R27, R28, R30). -/
def mismatch (cell : Nat) (reading : CellReading) (s : State) : State :=
  let cells := cleanCells ((sentBits s).take cell) ++ [reading]
  let t := breakAttempt .mismatch (stopDriving cells s)
  if beginsRun cells then leaveFrame t else t

/-- BIT_MISMATCH (R28). -/
def execBitMismatch (cell : Nat) (pulse : CellPulse) (s : State) : Host.Outcome State Fault Refusal :=
  when (mismatches cell (readCell pulse) s) (mismatch cell (readCell pulse)) s

/-- The sender has sent its last CRC cell (R29, R34). -/
def reachSlots (s : State) : State := enterTx .slots (inFrame .tail (cleanCells (sentBits s)) s)

/-- SLOTS_REACHED (R34). -/
def execSlotsReached (s : State) : Host.Outcome State Fault Refusal := when (s.lcu.tx == .sending) reachSlots s

/-! ### FRAME_DISCARDED (R29, R31) -/

/-- What the sender's line interface reports of its slots (R31). -/
inductive SlotReport where
  /-- no discard: taken, or a reading that cannot arise -/
  | noDiscard
  /-- OBJECTED or UNHEARD -/
  | ended (e : AttemptEnd)
  /-- the objection slot read as a width error: no report, the attempt stays in SLOTS -/
  | silent
  deriving DecidableEq, Repr

/-- The sender's report of ack and objection slot; an ack read as a width error, which a missing cell is too, counts as an ack
read 1 (R18, R31; log 22). -/
def slotReport (ack objection : CellReading) : SlotReport :=
  match ack, objection with
  | _, .widthError | _, .missing => .silent
  | .zero, .zero => .ended .objected
  | _, .zero => .ended .unheard
  | _, .one => .noDiscard

/-- Do the slots discard the frame at a receiver with this reading of it? Its own objection makes the slot read other than 1;
a missing cell begins an objection run instead (R30 to R32). -/
def receiverDiscards (s : State) (r : Reception) (ack objection : CellReading) : Bool :=
  ack != .missing && objection != .missing &&
    match r with
    | .unplaced => false
    | .errored .. => !(drivesSlots s && objection == .one)
    | .clean _ => objection != .one

/-- Can a frame with these cells and slots be discarded here? -/
def canDiscard (cells : List CellReading) (ack objection : CellReading) (s : State) : Bool :=
  s.suu.startUp.atWork && s.lif.decode.inside && s.lcu.tx != .contending && s.lcu.tx != .sending &&
    if inSlots s then cells == s.lif.cells && slotReport ack objection != .noDiscard
    else s.lif.cells.isPrefixOf cells && receiverDiscards s (receive cells) ack objection

/-- A frame discarded: no effect anywhere but the end of the sender's attempt (R31, R32). -/
def discard (ack objection : CellReading) (s : State) : State :=
  match inSlots s, slotReport ack objection with
  | true, .ended e => endAttempt e (frameEnd s)
  | _, _ => frameEnd s

/-- FRAME_DISCARDED (R31). -/
def execFrameDiscarded (cells : List CellPulse) (ack objection : CellPulse) (s : State) :
    Host.Outcome State Fault Refusal :=
  when (canDiscard (cells.map readCell) (readCell ack) (readCell objection) s)
    (discard (readCell ack) (readCell objection)) s

/-! ### OBJECTION_RUN_BEGUN (R30) -/

/-- Can a receiver leave the frame on these cells? -/
def canLeave (cells : List CellReading) (s : State) : Bool :=
  s.suu.startUp.atWork && s.lif.decode.inside && s.lcu.tx != .contending && s.lcu.tx != .sending && s.lcu.tx != .slots &&
    s.lif.cells.isPrefixOf cells && beginsRun cells

/-- OBJECTION_RUN_BEGUN (R30). -/
def execObjectionRunBegun (cells : List CellPulse) (s : State) : Host.Outcome State Fault Refusal :=
  when (canLeave (cells.map readCell) s) leaveFrame s

end Sys2Proof.Machine
end

