-- ==== Sys2Proof/Machine/LineFaults.lean ====
section
/-! DEFINITION. Stuck line and recovery (03): LINE_FAULT, RECOVERY_QUIET_END, RECOVERY_DEADLINE, FAULT_MEMORY_EXPIRY. -/

namespace Sys2Proof.Machine

/-- The line interface's part of a line fault: one per dominant period, the frame abandoned, idle seen clear (R19, R21). -/
def faultAtLine (s : State) : State :=
  s.withLif { s.lif.hunting with faultFound := true }

/-- The frame of the record: the one in attempt at the report, counted, or the one in attempt when the dominant period began
(R52; log 20). -/
def faultFrame (s : State) : Option (Nat × Nat) :=
  match attempted s with
  | some f => some (f.place.cls, countAfter .lineFault f)
  | none => s.lcu.domFrame

/-- Entry to RECOVERING: the deadline starts, the quiet time is not running (R44). -/
def enterRecovering (s : State) : State :=
  let t := enterTx .recovering s
  t.withLcu { t.lcu with recoveryDeadline := .running Config.recoveryDeadlineUs, recoveryQuiet := .off }

/-- A double fault: its record, the STUCK record escalated, HALTED (R48, R53). -/
def doubleFault (frame : Option (Nat × Nat)) (s : State) : State :=
  enterHalted (escalate (writeRecord .doubleFault frame s))

/-- The line controller's part of a line fault (R44, R48, R49, R50): the attempt in progress ends counted, LINE_FAULT is
raised, then RECOVERING or a double fault. -/
def faultAtController (s : State) : State :=
  if s.lcu.tx.shut then raise .lineFault s
  else
    let t := raise .lineFault (resolve .lineFault s)
    if t.lcu.tx = .recovering ∨ t.lcu.faultMemory.on = true then doubleFault (faultFrame s) t
    else enterRecovering (writeRecord .stuck (faultFrame s) t)

/-- LINE_FAULT (R44). -/
def execLineFault (s : State) : Host.Outcome State Fault Refusal :=
  when (s.suu.startUp.atWork && s.lif.dominant && !s.lif.faultFound) (fun s => faultAtController (faultAtLine s)) s

/-- The transmitter leaves RECOVERING: the fault memory starts, and a WAITING transmitter offers at once (R45, R46). -/
def leaveRecovering (s : State) : State :=
  let t := settleTx
    (s.withLcu
      { s.lcu with recoveryDeadline := .off, recoveryQuiet := .off, faultMemory := .running Config.faultMemoryUs })
  if t.lcu.tx = .waiting then offer t else t

/-- RECOVERY_QUIET_END (R45). -/
def execRecoveryQuietEnd (s : State) : Host.Outcome State Fault Refusal :=
  when (s.lcu.tx == .recovering && s.lcu.recoveryQuiet.on) leaveRecovering s

/-- The recovery has failed: a RECOVERY_TIMEOUT record, the STUCK record escalated, HALTED (R47, R53). -/
def recoveryFailed (s : State) : State := enterHalted (escalate (writeRecord .recoveryTimeout none s))

/-- RECOVERY_DEADLINE (R47). -/
def execRecoveryDeadline (s : State) : Host.Outcome State Fault Refusal :=
  when (s.lcu.tx == .recovering && s.lcu.recoveryDeadline.on) recoveryFailed s

/-- FAULT_MEMORY_EXPIRY (R46). -/
def execFaultMemoryExpiry (s : State) : Host.Outcome State Fault Refusal :=
  when s.lcu.faultMemory.on (fun s => s.withLcu { s.lcu with faultMemory := .off }) s

end Sys2Proof.Machine
end

