-- ==== Sys2Proof/Machine/Takings.lean ====
section
/-! DEFINITION. The takings of the eleven frame classes (R32, R33) and what each owner does with its frame. -/

namespace Sys2Proof.Machine

/-! ### When a frame is taken (R22, R32) -/

/-- Is the frame this station's own attempt, driven to its objection slot (R13)? -/
def ownAttempt (s : State) : Bool := s.lcu.tx == .slots

/-- Can the station take this frame: at work, a receiver of it or its sender, the cells already read being this frame's
(R22, R32; log 9)? -/
def canTake (f : Frame) (s : State) : Bool :=
  s.suu.startUp.atWork && s.lif.decode.inside && s.lcu.tx != .contending && s.lcu.tx != .sending &&
    s.lif.cells.isPrefixOf (cleanCells (wireBits f))

/-! ### The presence table (R188 to R190) -/

/-- The seated teams that entries give, in rising order (R190). -/
def seatedTeams (entries : List PresEntry) : List Nat :=
  ((List.range 16).map (· + 1)).filter fun t => entries.any fun e => e.heard && e.role == .team && e.team == t

/-- The presence entry of a desk changed, the seated set worked out afresh, the score unit told of a change (R190). -/
def setEntry (desk : Nat) (f : PresEntry → PresEntry) (s : State) : State :=
  let entries := s.prs.entries.modify desk f
  let t := s.withPrs { entries := entries, seated := seatedTeams entries }
  if seatedTeams entries = s.prs.seated then t else seatTeams (seatedTeams entries) t

/-- The presence entry of a desk. -/
def Prs.entry (x : Prs) (desk : Nat) : PresEntry := x.entries.getD desk .reset

/-- The heard-marking of every taken frame (R188). -/
def markHeard (desk round : Nat) (s : State) : State :=
  raiseIf (!(s.prs.entry desk).heard) .presenceChanged
    (setEntry desk (fun e => { e with heard := true, lastRound := round }) s)

/-- The team a description records: 1..16 with role TEAM, else 0 (R189). -/
def describedTeam (role team : Byte) : Nat :=
  if roleOfCode role.toNat = .team ∧ isTeam team.toNat = true then team.toNat else 0

/-- A description of the sender, with the fields that HELLO or PRESENT alone sets (R189). -/
def describe (desk : Nat) (role team : Byte) (extra : PresEntry → PresEntry) (s : State) : State :=
  raiseIf
    ((s.prs.entry desk).role != roleOfCode role.toNat || (s.prs.entry desk).team != describedTeam role team)
    .presenceChanged
    (setEntry desk (fun e => extra { e with role := roleOfCode role.toNat, team := describedTeam role team }) s)

/-! ### The common parts of a taking (R13, R32, R33, R188; log 12) -/

/-- The duplicate check: a taken frame of the own desk number that this station did not send (R13). -/
def checkDuplicate (own : Bool) (desk : Nat) (s : State) : State :=
  if desk = s.suu.identity.desk ∧ own = false then mute (raise .duplicate s) else s

/-- The frame's end at the line interface, and the TAKEN of the sender's own attempt (R31, R42). -/
def takenAtLine (s : State) : State :=
  if ownAttempt s then endAttempt .taken (frameEnd s) else frameEnd s

/-- A taking: the line, presence, the owners if the sender check passes, the duplicate check (R32, R33). -/
def taking (f : Frame) (effect : State → State) (s : State) : State :=
  let t := markHeard f.desk.toNat f.round.toNat (takenAtLine s)
  let u := if senderAllowed f.desk.toNat f.body then effect t else t
  checkDuplicate (ownAttempt s) f.desk.toNat u

/-- A taking as an outcome. -/
def takes (f : Frame) (effect : State → State) (s : State) : Host.Outcome State Fault Refusal :=
  when (canTake f s) (taking f effect) s

/-! ### OPEN (R56, R61, R62, R75 to R77, R80, R98, R121) -/

/-- An OPEN replaces the capture of an input in PRESS_FILTER by 0 (R61). -/
def Input.opened (i : Input) : Input := match i.filter with
  | .pressFilter _ => { i with filter := .pressFilter 0 }
  | _ => i

/-- The input capture unit at an OPEN: press record reset, captures replaced (R61, R62). -/
def Icu.opened (x : Icu) : Icu :=
  { x with buzz := x.buzz.opened, keyA := x.keyA.opened, keyB := x.keyB.opened, keyC := x.keyC.opened,
           keyD := x.keyD.opened, record := .reset }

/-- Has the arm been reached, or does saturation stand for it (R80, R81)? -/
def armDue (s : State) : Bool := s.rng.phase == .reading && (s.rng.saturated || decide (s.rng.armTicks ≤ s.rck.count))

/-- The arm: READING becomes LIVE, and what follows at once (R80). -/
def reachArm (s : State) : State := if armDue s then advance (setPhase .live s) else s

/-- The taking of an OPEN (R77). -/
def openEffect (round : Byte) (block : OpenBlock) (s : State) : State :=
  let t := withdrawOwn s
  reachArm
    (raise .roundOpened
      (((((t.withRng (loadRound round block)).withClt .reset).withCht .reset).withRck { count := 0, running := true }).withIcu
        t.icu.opened))

/-- OPEN_TAKEN (R77). -/
def execOpenTaken (desk : Desk) (round : Byte) (block : OpenBlock) (s : State) : Host.Outcome State Fault Refusal :=
  takes ⟨desk, round, .open_ block⟩ (openEffect round block) s

/-! ### CLOSE (R82, R83, R93) -/

/-- The phases in which a CLOSE of the current round is applied (R82). -/
def Phase.closable : Phase → Bool
  | .reading | .live | .turn | .held | .closing => true
  | .unsynced | .ended => false

/-- The taking of a CLOSE (R82, R83). -/
def closeEffect (round : Byte) (point : Triple) (s : State) : State :=
  if round.toNat = s.rng.round ∧ s.rng.phase.closable = true then
    let t := s.withRng { s.rng with closePoint := min s.rng.closePoint point.toNat, closed := true }
    if s.rng.phase = .reading ∨ point.toNat ≤ s.rng.armTicks then enterEnded t else advance t
  else s

/-- CLOSE_TAKEN (R82). -/
def execCloseTaken (desk : Desk) (round : Byte) (point : Triple) (s : State) : Host.Outcome State Fault Refusal :=
  takes ⟨desk, round, .close point⟩ (closeEffect round point) s

/-! ### VERDICT (R89, R90, R151, R165) -/

/-- The console function clears its marker at the taking of its own VERDICT (R165). -/
def verdictAtConsole (own : Bool) (s : State) : State := if consoleStation s && own then clearMarker s else s

/-- The taking of a VERDICT (R89, R90, R165). -/
def verdictEffect (own : Bool) (round turn team outcome : Byte) (check : Half) (s : State) : State :=
  match verdictHandling s.rng round.toNat turn.toNat team.toNat outcome.toNat with
  | .ignored => verdictAtConsole own s
  | .checkOnly => verdictAtConsole own (takeCheckTotal team.toNat check.toInt s)
  | .full o => advance (verdictAtConsole own (fullVerdict turn.toNat team.toNat o check.toInt s))

/-- VERDICT_TAKEN (R89). -/
def execVerdictTaken (desk : Desk) (round turn team outcome : Byte) (check : Half) (s : State) :
    Host.Outcome State Fault Refusal :=
  takes ⟨desk, round, .verdict turn team outcome check⟩ (verdictEffect (ownAttempt s) round turn team outcome check) s

/-! ### PASS (R88, R167) -/

/-- Does the PASS end the turn in progress (R88)? -/
def passEnds (r : Rng) (round turn team : Nat) : Bool :=
  round == r.round && (r.phase == .turn || r.phase == .held) && turn == r.turn && r.answering == some team

/-- The console gives up its VERDICT for a turn that a PASS has ended (R167). -/
def supersede (turn : Nat) (s : State) : State :=
  if consoleStation s = true ∧ s.cnf.verdictPending = some turn then
    raise .verdictSuperseded (clearMarker (withdraw .verdict s))
  else s

/-- The taking of a PASS (R88, R167). -/
def passEffect (round turn team : Byte) (s : State) : State :=
  if passEnds s.rng round.toNat turn.toNat team.toNat then
    advance (supersede turn.toNat (endTurnByPass team.toNat s))
  else s

/-- PASS_TAKEN (R88). -/
def execPassTaken (desk : Desk) (round turn team : Byte) (s : State) : Host.Outcome State Fault Refusal :=
  takes ⟨desk, round, .pass turn team⟩ (passEffect round turn team) s

/-! ### CLAIM (R65, R66, R102 to R105) -/

/-- The claim list's part (R102 to R105). -/
def claimAtList (desk round stamp team : Nat) (s : State) : State :=
  if claimAccepted s.rng round stamp team then s.withClt ⟨takeClaim s.rng desk stamp team s.clt.entries⟩ else s

/-- Does a teammate's CLAIM overtake this desk's own (R66)? -/
def overtaken (desk round stamp team : Nat) (s : State) : Bool :=
  desk != s.suu.identity.desk && team == s.suu.identity.team && round == s.rng.round &&
    s.icu.record.ownClaim == .pending && s.icu.record.claimStamp.any (fun own => decide (stamp ≤ own))

/-- The input capture unit's part (R65, R66). -/
def claimAtDesk (desk round stamp team : Nat) (s : State) : State :=
  if desk = s.suu.identity.desk then setRecord { s.icu.record with ownClaim := .taken, claimStamp := some stamp } s
  else if overtaken desk round stamp team s then withdraw .claim s
  else s

/-- The taking of a CLAIM (R120). -/
def claimEffect (desk : Desk) (round : Byte) (stamp : Triple) (team : Byte) (s : State) : State :=
  advance
    (claimAtDesk desk.toNat round.toNat stamp.toNat team.toNat
      (claimAtList desk.toNat round.toNat stamp.toNat team.toNat s))

/-- CLAIM_TAKEN (R102). -/
def execClaimTaken (desk : Desk) (round : Byte) (stamp : Triple) (team : Byte) (s : State) :
    Host.Outcome State Fault Refusal :=
  takes ⟨desk, round, .claim stamp team⟩ (claimEffect desk round stamp team) s

/-! ### CHOICE (R71, R122 to R126) -/

/-- The choice table's part (R122 to R125). -/
def choiceAtTable (desk round stamp key team : Nat) (s : State) : State :=
  if choiceAccepted s.rng round stamp key team then s.withCht (takeChoice s.rng.mode desk stamp key team s.cht) else s

/-- The input capture unit's part: the frame's key is the last key taken when the sender is the own desk, whatever the choice
table does with the frame; the pending key goes unless the place holds another content (R71, R122, R126). A key that no
station sends, 5..255, is recorded as the frame carries it (log 23). -/
def choiceAtDesk (desk key : Nat) (s : State) : State :=
  if desk = s.suu.identity.desk then
    setRecord
      { s.icu.record with
        lastKey := key, pendingKey := if (frameAt .choice s.lcu.queue).isNone then 0 else s.icu.record.pendingKey } s
  else s

/-- The taking of a CHOICE (R126). -/
def choiceEffect (desk : Desk) (round : Byte) (stamp : Triple) (key team : Byte) (s : State) : State :=
  choiceAtDesk desk.toNat key.toNat (choiceAtTable desk.toNat round.toNat stamp.toNat key.toNat team.toNat s)

/-- CHOICE_TAKEN (R122). -/
def execChoiceTaken (desk : Desk) (round : Byte) (stamp : Triple) (key team : Byte) (s : State) :
    Host.Outcome State Fault Refusal :=
  takes ⟨desk, round, .choice stamp key team⟩ (choiceEffect desk round stamp key team) s

/-! ### TALLY (R153) -/

/-- The taking of a TALLY page from another desk (R153). -/
def tallyEffect (desk : Desk) (page : Byte) (totals : List Half) (s : State) : State :=
  if desk.toNat ≠ s.suu.identity.desk ∧ page.toNat ≤ 3 then takePage page.toNat (totals.map BitVec.toInt) s else s

/-- TALLY_TAKEN (R153). -/
def execTallyTaken (desk : Desk) (round page : Byte) (total1 total2 total3 total4 : Half) (s : State) :
    Host.Outcome State Fault Refusal :=
  takes ⟨desk, round, .tally page total1 total2 total3 total4⟩ (tallyEffect desk page [total1, total2, total3, total4]) s

/-! ### REVEAL (R94, R129 to R132, R174) -/

/-- Does the round engine apply the REVEAL (R94)? -/
def revealApplies (r : Rng) (round key : Nat) : Bool := round == r.round && r.phase == .closing && decide (key ≤ 4)

/-- The taking of a REVEAL: correct key, own CHOICE withdrawn, records scored but for a void, ENDED; the console asks for its
pages (R94, R129 to R131, R174). -/
def revealEffect (round key : Byte) (s : State) : State :=
  if revealApplies s.rng round.toNat key.toNat then
    let t := withdraw .choice (s.withRng { s.rng with correctKey := some key.toNat })
    let u := enterEnded (if key = 0 then t else scoreReveal key.toNat t)
    if consoleStation u then requestAllPages u else u
  else s

/-- REVEAL_TAKEN (R94). -/
def execRevealTaken (desk : Desk) (round key : Byte) (s : State) : Host.Outcome State Fault Refusal :=
  takes ⟨desk, round, .reveal key⟩ (revealEffect round key) s

/-! ### ROLL (R191, R192) -/

/-- An idle console enters POLLING with the frame's roll id and window (R191); a window below 5 is taken as 5 (R203). An id of 0,
which no roll of a console has, is taken over like any other: the model's choice (log 38). -/
def startPolling (id window : Nat) (s : State) : State :=
  if consoleStation s = true ∧ s.cnf.rollState = .idle then
    s.withCnf
      { s.cnf with
        rollState := .polling, currentRoll := some id, window := some (max 5 window), replySet := [],
        windowTimer := .running (max 5 window * 10000) }
  else s

/-- Does the station answer a roll (R192)? -/
def answersRoll (s : State) : Bool :=
  s.suu.identity.desk != 0 && s.suu.startUp == .joined && !s.suu.muted && s.lcu.tx != .halted

/-- The status flags of a PRESENT (R192, R203). -/
def presentFlags (s : State) : Byte :=
  bitAt 0 (s.rng.phase == .unsynced) ||| bitAt 1 s.lcu.recovered ||| bitAt 2 (s.scu.records.any TeamRec.unconfirmed)

/-- The PRESENT that answers a roll (R192). -/
def presentContent (id : Byte) (s : State) : Content :=
  .present (roleCode s.suu.identity.role) (byteOf s.suu.identity.team) id (presentFlags s)

/-- The taking of a ROLL (R191, R192). -/
def rollEffect (id window : Byte) (s : State) : State :=
  let t := startPolling id.toNat window.toNat s
  if answersRoll t then handOver (presentContent id t) .prs t else t

/-- ROLL_TAKEN (R192). -/
def execRollTaken (desk : Desk) (round id window : Byte) (s : State) : Host.Outcome State Fault Refusal :=
  takes ⟨desk, round, .roll id window⟩ (rollEffect id window) s

/-! ### PRESENT (R189, R193) -/

/-- The reply set of a roll in progress (R193). -/
def addReply (desk id : Nat) (s : State) : State :=
  if consoleStation s = true ∧ s.cnf.rollState = .polling ∧ s.cnf.currentRoll = some id then
    s.withCnf { s.cnf with replySet := insertNat desk s.cnf.replySet }
  else s

/-- The fields that PRESENT alone sets (R189). -/
def presentExtra (id flags : Byte) (e : PresEntry) : PresEntry :=
  { e with lastRoll := id.toNat, unsynced := flags.getLsbD 0, recovered := flags.getLsbD 1, unconfirmed := flags.getLsbD 2 }

/-- The taking of a PRESENT (R189, R193). -/
def presentEffect (desk : Desk) (role team id flags : Byte) (s : State) : State :=
  addReply desk.toNat id.toNat (describe desk.toNat role team (presentExtra id flags) s)

/-- PRESENT_TAKEN (R189). -/
def execPresentTaken (desk : Desk) (round role team id flags : Byte) (s : State) : Host.Outcome State Fault Refusal :=
  takes ⟨desk, round, .present role team id flags⟩ (presentEffect desk role team id flags) s

/-! ### HELLO (R174, R189) -/

/-- The taking of a HELLO (R174, R189). -/
def helloEffect (desk : Desk) (role team : Byte) (tag : Half) (s : State) : State :=
  let t := describe desk.toNat role team (fun e => { e with tag := tag }) s
  if consoleStation t = true ∧ desk ≠ 0 then requestAllPages t else t

/-- HELLO_TAKEN (R189). -/
def execHelloTaken (desk : Desk) (round role team : Byte) (tag : Half) (s : State) : Host.Outcome State Fault Refusal :=
  takes ⟨desk, round, .hello role team tag⟩ (helloEffect desk role team tag) s

end Sys2Proof.Machine
end

