-- ==== Sys2Proof/Machine/RoundTimers.lean ====
section
/-! DEFINITION. The round's clock and timers (04, 05, 06): ROUND_CLOCK_TICK, ARM_REACHED, WINDOW_END, ROUND_CLOCK_SATURATION,
SETTLE_DEADLINE, SETTLE_OUT, ANSWER_CLOCK_STEP, ANSWER_CLOCK_EXPIRY. A tick only counts; what a count brings about comes by
its own row (log 8). -/

namespace Sys2Proof.Machine

/-- The round clock rises by one (R55). -/
def tick (s : State) : State := s.withRck { s.rck with count := s.rck.count + 1 }

/-- ROUND_CLOCK_TICK (R55). -/
def execRoundClockTick (s : State) : Host.Outcome State Fault Refusal :=
  when (s.rck.running && decide (s.rck.count < Config.clockMax)) tick s

/-- ARM_REACHED (R80). -/
def execArmReached (s : State) : Host.Outcome State Fault Refusal := when (armDue s) reachArm s

/-- Has the count reached the close point of an open round (R81)? -/
def windowDue (s : State) : Bool :=
  s.rng.phase.claiming && !s.rng.closed && decide (s.rng.closePoint ≤ s.rck.count)

/-- Closed becomes yes (R81, R93). -/
def endWindow (s : State) : State := advance (s.withRng { s.rng with closed := true })

/-- WINDOW_END (R81). -/
def execWindowEnd (s : State) : Host.Outcome State Fault Refusal := when (windowDue s) endWindow s

/-- The clock holds at its greatest count and reports saturation: every comparison of the round counts as met (R57, R81). -/
def saturateClock (s : State) : State :=
  let t := s.withRck { s.rck with running := false }
  if s.rng.phase.closable then
    let u := t.withRng { s.rng with saturated := true, closed := true }
    advance (if s.rng.phase = .reading then setPhase .live u else u)
  else t

/-- ROUND_CLOCK_SATURATION (R57). -/
def execRoundClockSaturation (s : State) : Host.Outcome State Fault Refusal :=
  when (s.rck.running && decide (s.rck.count = Config.clockMax)) saturateClock s

/-- SETTLE_DEADLINE (R106). -/
def execSettleDeadline (s : State) : Host.Outcome State Fault Refusal := when (grantDue s) grant s

/-- SETTLE_OUT (R92). -/
def execSettleOut (s : State) : Host.Outcome State Fault Refusal := when (settleOutDue s) enterEnded s

/-- The answer clock counts down by one (R85). -/
def answerStep (s : State) : State := s.withRng { s.rng with answerClock := s.rng.answerClock - 1 }

/-- ANSWER_CLOCK_STEP (R85). -/
def execAnswerClockStep (s : State) : Host.Outcome State Fault Refusal :=
  when (s.rng.answerRunning && decide (0 < s.rng.answerClock)) answerStep s

/-- The answer clock stops at 0 and the phase becomes HELD; the console hands the automatic TIMEOUT (R85, R166). -/
def answerExpiry (s : State) : State :=
  let t := s.withRng { s.rng with answerRunning := false, phase := .held }
  if consoleStation t then handTimeout t else t

/-- ANSWER_CLOCK_EXPIRY (R85). -/
def execAnswerClockExpiry (s : State) : Host.Outcome State Fault Refusal :=
  when (s.rng.phase == .turn && s.rng.answerRunning && decide (s.rng.answerClock = 0)) answerExpiry s

end Sys2Proof.Machine
end

