-- ==== Sys2Proof/Machine/DeskInputs.lean ====
section
/-! DEFINITION. The desk inputs (04): edges, accepted presses and releases, jumps, claims, choices, the hold to pass. -/

namespace Sys2Proof.Machine

/-! ### The five inputs -/

/-- One of the five inputs. -/
def Icu.input (x : Icu) : DeskInput → Input
  | .buzz => x.buzz
  | .keyA => x.keyA
  | .keyB => x.keyB
  | .keyC => x.keyC
  | .keyD => x.keyD

/-- One of the five inputs replaced. -/
def Icu.setInput (x : Icu) (d : DeskInput) (i : Input) : Icu :=
  match d with
  | .buzz => { x with buzz := i }
  | .keyA => { x with keyA := i }
  | .keyB => { x with keyB := i }
  | .keyC => { x with keyC := i }
  | .keyD => { x with keyD := i }

/-- One of the five inputs replaced in the state. -/
def setInput (d : DeskInput) (i : Input) (s : State) : State := s.withIcu (s.icu.setInput d i)

/-- The key number of an answer key, 1..4 for A..D; none for BUZZ. -/
def keyNumber : DeskInput → Option Nat
  | .buzz => none
  | .keyA => some 1
  | .keyB => some 2
  | .keyC => some 3
  | .keyD => some 4

/-- The filter timer's length in microseconds (R2, R59). -/
def filterTimer (s : State) : Timer := .running (s.suu.identity.filterMs * 1000)

/-! ### Edges (R59 to R61) -/

/-- An input at a falling edge, the filters running: a capture, or a release bounce (R59, R60). -/
def Input.fall (i : Input) (capture : Nat) (timer : Timer) : Input :=
  match i.filter with
  | .released => { low := true, filter := .pressFilter capture, timer := timer }
  | .releaseFilter t => { low := true, filter := .pressed t, timer := .off }
  | .pressFilter _ | .pressed _ => { i with low := true }

/-- An input at a rising edge, the filters running: a bounce, or a release to be confirmed (R59, R60). -/
def Input.rise (i : Input) (timer : Timer) : Input :=
  match i.filter with
  | .pressFilter _ => { low := false, filter := .released, timer := .off }
  | .pressed t => { low := false, filter := .releaseFilter t, timer := timer }
  | .released | .releaseFilter _ => { i with low := false }

/-- A falling edge; in LOADING and CONFIG_FAULT the filter is held (R61). -/
def fallInput (d : DeskInput) (s : State) : State :=
  setInput d
    (if s.suu.startUp.atWork then (s.icu.input d).fall s.rck.count (filterTimer s)
     else { s.icu.input d with low := true }) s

/-- A rising edge; in LOADING and CONFIG_FAULT the filter is held (R61). -/
def riseInput (d : DeskInput) (s : State) : State :=
  setInput d
    (if s.suu.startUp.atWork then (s.icu.input d).rise (filterTimer s) else { s.icu.input d with low := false }) s

/-- INPUT_FALLING_EDGE (R59). -/
def execInputFallingEdge (d : DeskInput) (s : State) : Host.Outcome State Fault Refusal :=
  when (!(s.icu.input d).low) (fallInput d) s

/-- INPUT_RISING_EDGE (R60). -/
def execInputRisingEdge (d : DeskInput) (s : State) : Host.Outcome State Fault Refusal :=
  when (s.icu.input d).low (riseInput d) s

/-! ### Jumps (R63) -/

/-- Is a press of this time a jump (R63)? -/
def isJump (r : Rng) (time : Nat) : Bool := decide (time < r.armTicks)

/-- A jump: jumped, and the jump-lock end (R63). -/
def jump (s : State) : State :=
  setRecord { s.icu.record with jumped := true, jumpLockEnd := s.rng.armTicks + s.rng.jumpLockTicks } s

/-! ### Claims (R58, R64) -/

/-- The stamp of a press (R58). -/
def stampOf (r : Rng) (time : Nat) : Nat := time / r.grain

/-- A CLAIM handed with the press's stamp, and what its answer makes of the record (R64). -/
def queueClaim (stamp : Nat) (s : State) : State :=
  let c := Content.claim (BitVec.ofNat 24 stamp) (byteOf s.suu.identity.team)
  match handAnswer c s with
  | .queued => handOver c .icu (setRecord { s.icu.record with ownClaim := .pending, claimStamp := some stamp } s)
  | .dropped => claimDropped (handOver c .icu s)
  | .replaced | .already _ | .noPlace => s

/-- The tests of R64 on a BUZZ press that is no jump: is a CLAIM to be queued? -/
def claimTests (time : Nat) (s : State) : Bool :=
  decide (s.icu.record.jumpLockEnd ≤ time) && s.icu.record.ownClaim != .pending && s.icu.record.ownClaim != .taken &&
    (ownEntry s).isNone && s.rng.phase.claiming && decide (time < s.rng.closePoint)

/-! ### The hold to pass (R67) -/

/-- Is the own team answering, in TURN or HELD? -/
def ownTeamAnswers (s : State) : Bool :=
  (s.rng.phase == .turn || s.rng.phase == .held) && s.rng.answering == some s.suu.identity.team

/-- The hold timer starts; pass turn is the current turn when the own team answers (R67). -/
def startHold (s : State) : State :=
  s.withIcu
    { s.icu with
      hold := .running (s.suu.identity.passHold * 100000)
      record := { s.icu.record with passTurn := if ownTeamAnswers s then some s.rng.turn else none } }

/-! ### Choices (R69, R70) -/

/-- The key a CHANGE-mode press is compared with (R70). -/
def comparedKey (r : PressRecord) : Nat := if r.pendingKey ≠ 0 then r.pendingKey else r.lastKey

/-- Does the choice mode let a key be sent (R69, R70)? -/
def keyAllowed (mode : ChoiceMode) (r : PressRecord) (key : Nat) : Bool :=
  match mode with
  | .first => r.lastKey == 0 && r.pendingKey == 0
  | .change => comparedKey r != key

/-- The tests of R69 and R70 on a key press that is no jump. -/
def choiceTests (key time : Nat) (s : State) : Bool :=
  decide (s.icu.record.jumpLockEnd ≤ time) && s.rng.phase == .live && decide (time < s.rng.closePoint) &&
    keyAllowed s.rng.mode s.icu.record key

/-- A CHOICE handed with the press's stamp, and what its answer makes of the record (R69 to R71). Dropped at once, the pending
key becomes 0, as R71 says; R70 says that it stays as it was (log 36). -/
def queueChoice (key stamp : Nat) (s : State) : State :=
  let c := Content.choice (BitVec.ofNat 24 stamp) (byteOf key) (byteOf s.suu.identity.team)
  match handAnswer c s with
  | .queued | .replaced => handOver c .icu (setRecord { s.icu.record with pendingKey := key } s)
  | .dropped => choiceDropped (handOver c .icu s)
  | .already _ | .noPlace => s

/-! ### The judgement of a press (R61) -/

/-- Is the round in a phase that judges presses: not UNSYNCED, CLOSING or ENDED (R61)? -/
def Phase.judges : Phase → Bool
  | .reading | .live | .turn | .held => true
  | .unsynced | .closing | .ended => false

/-- A BUZZ press in a BUZZ round: the hold starts, also for a press ignored, then jump or claim (R61, R63, R64, R67). -/
def judgeBuzz (time : Nat) (s : State) : State :=
  let t := startHold s
  if s.rng.phase.judges = false then t
  else if isJump s.rng time then jump t
  else if claimTests time s then queueClaim (stampOf s.rng time) t
  else t

/-- A key press in a CHOICE round (R61, R63, R69, R70). -/
def judgeKey (key time : Nat) (s : State) : State :=
  if s.rng.phase.judges = false then s
  else if isJump s.rng time then jump s
  else if choiceTests key time s then queueChoice key (stampOf s.rng time) s
  else s

/-- An accepted press judged by the round's format; an UNSYNCED station ignores it and starts no hold (R61; log 16). -/
def judge (d : DeskInput) (time : Nat) (s : State) : State :=
  if s.rng.phase = .unsynced then s
  else match s.rng.format, keyNumber d with
    | .buzz, none => judgeBuzz time s
    | .choice, some k => judgeKey k time s
    | .buzz, some _ | .choice, none => s

/-- Are accepted presses judged: a TEAM station, JOINED and not muted (R12, R61)? -/
def judgesPresses (s : State) : Bool :=
  s.suu.identity.role == .team && s.suu.startUp == .joined && !s.suu.muted

/-- A press accepted with this capture (R59, R61). -/
def acceptPress (d : DeskInput) (capture : Nat) (s : State) : State :=
  let t := setInput d { s.icu.input d with filter := .pressed (some capture), timer := .off } s
  if judgesPresses s then judge d capture t else t

/-- The capture of an input whose press filter runs. -/
def Input.capture (i : Input) : Option Nat := match i.filter with
  | .pressFilter c => if i.timer.on then some c else none
  | _ => none

/-- PRESS_ACCEPTED (R59). -/
def execPressAccepted (d : DeskInput) (s : State) : Host.Outcome State Fault Refusal :=
  when (s.icu.input d).capture.isSome (acceptPress d ((s.icu.input d).capture.getD 0)) s

/-- Is a release being confirmed? -/
def Input.releasing (i : Input) : Bool := match i.filter with
  | .releaseFilter _ => i.timer.on
  | _ => false

/-- The hold ends at BUZZ's confirmed release, and pass turn returns to none (R67). -/
def endHold (s : State) : State :=
  s.withIcu { s.icu with hold := .off, record := { s.icu.record with passTurn := none } }

/-- A release accepted (R60, R67). -/
def acceptRelease (d : DeskInput) (s : State) : State :=
  let t := setInput d { s.icu.input d with filter := .released, timer := .off } s
  if d = .buzz then endHold t else t

/-- RELEASE_ACCEPTED (R60). -/
def execReleaseAccepted (d : DeskInput) (s : State) : Host.Outcome State Fault Refusal :=
  when (s.icu.input d).releasing (acceptRelease d) s

/-! ### The end of the hold (R67, R68) -/

/-- A PASS handed for the turn; a drop at once is reported to the panel (R68). -/
def queuePass (turn : Nat) (s : State) : State :=
  let c := Content.pass (byteOf turn) (byteOf s.suu.identity.team)
  match handAnswer c s with
  | .queued => handOver c .icu s
  | .dropped => reportDrop (handOver c .icu s)
  | .replaced | .already _ | .noPlace => s

/-- The turn for which the hold may pass (R67). -/
def passableTurn (s : State) : Option Nat :=
  if ownTeamAnswers s then s.icu.record.passTurn.filter (· == s.rng.turn) else none

/-- The hold timer has reached the pass-hold time (R67). -/
def holdEnd (s : State) : State :=
  match passableTurn s with
  | some turn => queuePass turn (endHold s)
  | none => endHold s

/-- PASS_HOLD_END (R67). -/
def execPassHoldEnd (s : State) : Host.Outcome State Fault Refusal := when s.icu.hold.on holdEnd s

end Sys2Proof.Machine
end

