-- ==== Sys2Proof/Machine/PanelTimers.lean ====
section
/-! DEFINITION. The panel's timers (10) and the console's roll window (11): JUMP_LOCK_END, DROPPED_FRAME_FLASH_END,
BLINK_BASE_HALF_PERIOD, DISPLAY_UPDATE_END, ROLL_WINDOW_EXPIRY. -/

namespace Sys2Proof.Machine

/-- JUMP_LOCK_END: the clock has reached the jump-lock end, and the panel follows (R179 to R181). -/
def execJumpLockEnd (s : State) : Host.Outcome State Fault Refusal :=
  when (s.icu.record.jumped && decide (s.icu.record.jumpLockEnd ≤ s.rck.count)) id s

/-- DROPPED_FRAME_FLASH_END (R184). -/
def execDroppedFrameFlashEnd (s : State) : Host.Outcome State Fault Refusal :=
  when s.pnl.flash.on (fun s => s.withPnl { s.pnl with flash := .off }) s

/-- The blink base's next half-period of FAST, eight to a period of SLOW (R176; log 18). -/
def blinkOn (s : State) : State := s.withPnl { s.pnl with blink := (s.pnl.blink + 1) % 8 }

/-- BLINK_BASE_HALF_PERIOD (R176). -/
def execBlinkBaseHalfPeriod (s : State) : Host.Outcome State Fault Refusal := .next (refresh (blinkOn s))

/-- DISPLAY_UPDATE_END: a content that has changed meanwhile is sent at once (R177). -/
def execDisplayUpdateEnd (s : State) : Host.Outcome State Fault Refusal :=
  when s.pnl.update.on (fun s => s.withPnl { s.pnl with update := .off }) s

/-- The report a roll leaves: a valid one is kept (R193). -/
def rollReport (x : Cnf) : RollReport :=
  if x.report.valid then x.report
  else
    { valid := true, id := x.currentRoll.getD 0, window := x.window.getD 0, desks := x.replySet, count := x.replySet.length }

/-- The end of a roll's reply window (R193). -/
def endRoll (s : State) : State :=
  raise .rollDone
    (s.withCnf
      { s.cnf with
        report := rollReport s.cnf, rollState := .idle, currentRoll := none, window := none, windowTimer := .off,
        replySet := [] })

/-- ROLL_WINDOW_EXPIRY (R193). -/
def execRollWindowExpiry (s : State) : Host.Outcome State Fault Refusal :=
  when (s.cnf.rollState == .polling && s.cnf.windowTimer.on) endRoll s

end Sys2Proof.Machine
end

