-- ==== Sys2Proof/Machine/Port.lean ====
section
/-! DEFINITION. The command port (12, 13): transfers, the commands common to all roles and their reply records. -/

namespace Sys2Proof.Machine

/-! ### Transfers and replies (R195, R196) -/

/-- The port after the rising edge of CS_N. -/
def Cmp.release (x : Cmp) : Cmp := { x with transfer := .waitSelect, csN := true, sdo := none }

/-- A taken command's reply: the count rises, the reply record carries the raised count (R195; log 14). A step that answers
a command advances the counter of free values (log 11). -/
def answer (code : Byte) (rc : ReplyCode) (body : List Byte) (s : State) : State :=
  (s.withCmp
      { s.cmp.release with
        count := s.cmp.count + 1, heldReply := replyRecord code rc (s.cmp.count + 1) body }).withFree (s.free + 1)

/-- What SDO carries after n bits have been shifted out: the record's bits, most significant bit of the first byte first, then zeros;
nothing while it is released (R195). -/
def Cmp.sdoBit (x : Cmp) (n : Nat) : Option Bool := x.sdo.map fun bits => bits.getD n false

/-- Is a transfer going on, so that a command can be taken at its end (R195)? -/
def shifting (s : State) : Bool := s.cmp.transfer == .shifting

/-- A command's taking: at the end of a transfer. -/
def command (f : State → State) (s : State) : Host.Outcome State Fault Refusal := when (shifting s) f s

/-- TRANSFER_START (R195): SHIFTING, the held reply presented bit by bit. -/
def execTransferStart (s : State) : Host.Outcome State Fault Refusal :=
  when (s.cmp.transfer == .waitSelect)
    (fun s => s.withCmp { s.cmp with transfer := .shifting, csN := false, sdo := some (s.cmp.heldReply.flatMap bitsOf) }) s

/-- TRANSFER_END_NO_COMMAND (R195, R196): a transfer without a whole byte, or the release awaited since a reset; reply and
count are kept. -/
def execTransferEndNoCommand (s : State) : Host.Outcome State Fault Refusal :=
  when (s.cmp.transfer != .waitSelect) (fun s => s.withCmp s.cmp.release) s

/-- How many argument bytes a command code needs; none for a code that names no command (R204). -/
def argumentCount (code : Nat) : Option Nat :=
  if code ≤ 9 ∨ code = 0x0E ∨ code = 0x21 ∨ code = 0x26 ∨ code = 0x28 then some 0
  else if code = 0x0C ∨ code = 0x23 ∨ code = 0x27 then some 1
  else if code = 0x0A ∨ code = 0x0B ∨ code = 0x22 then some 2
  else if code = 0x0D ∨ code = 0x24 ∨ code = 0x25 then some 3
  else if code = 0x20 then some 19
  else none

/-- Does this record name no command, or give too few arguments (R195)? -/
def isUnknown (code : Byte) (args : List Byte) : Bool :=
  match argumentCount code.toNat with
  | none => true
  | some n => decide (args.length < n)

/-- UNKNOWN_COMMAND (R195). -/
def execUnknownCommand (code : Byte) (args : List Byte) (s : State) : Host.Outcome State Fault Refusal :=
  when (shifting s && isUnknown code args) (answer code .unknown []) s

/-- NOP keeps the held reply and raises the count (R196). -/
def execNop (s : State) : Host.Outcome State Fault Refusal :=
  command (fun s => s.withCmp { s.cmp.release with count := s.cmp.count + 1 }) s

/-! ### STATUS (R198, R204) -/

/-- A flag as a byte of its own: 1 set, 0 clear (log 33). -/
def flagByte (b : Bool) : Byte := if b then 1 else 0

/-- The identity items of STATUS (log 30). -/
def statusIdentity (s : State) : List Byte :=
  let i := s.suu.identity
  [roleCode i.role, byteOf i.desk, byteOf i.team] ++ bytes2 i.tag ++
    [withSpare (byteOf i.passHold) 0xE0 5 s.free, withSpare (byteOf (filterCode i.filterMs)) 0xFC 6 s.free,
     withSpare (bitAt 0 (i.idleDisplay == .rank) ||| bitAt 1 i.blink) 0xFC 7 s.free,
     reasonCode i.reason, startUpCode s.suu.startUp]

/-- The markers of STATUS. The turn of a clear marker has no code: a free value (log 11). -/
def statusMarkers (s : State) : List Byte :=
  [withSpare
      (bitAt 0 s.suu.muted ||| bitAt 1 s.sto.busy ||| bitAt 2 s.lcu.faultMemory.on ||| bitAt 3 s.cnf.verdictPending.isSome |||
        bitAt 4 (s.cnf.verdictKind == .automatic) ||| bitAt 5 (s.cnf.rollState == .polling)) 0xC0 10 s.free,
   match s.cnf.verdictPending with
    | some turn => byteOf turn
    | none => Config.unnamedBits 11 s.free]

/-- The fourteen places in class order, the TALLY pages in page order (R204). -/
def allPlaces : List Place :=
  [.close, .verdict, .pass, .claim, .choice, .tally 0, .tally 1, .tally 2, .tally 3, .reveal, .open_, .roll, .present, .hello]

/-- The byte of a place; what an unoccupied place's other bits carry is not said (R198; log 11). -/
def placeByte (s : State) (p : Place) : Byte :=
  match frameAt p s.lcu.queue with
  | none => withSpare 0 0x7F (13 + p.index) s.free
  | some f =>
    withSpare (bitAt 7 true ||| bitAt 6 f.inAttempt ||| bitAt 5 f.withdrawn ||| byteOf f.attempts) 0x18 (13 + p.index) s.free

/-- The transmitter items of STATUS. -/
def statusTransmitter (s : State) : List Byte := txCode (some s.lcu.tx) :: allPlaces.map (placeByte s)

/-- A correct key, 0xFF for NOT_REVEALED (R204). -/
def keyByte : Option Nat → Byte
  | none => 0xFF
  | some k => byteOf k

/-- The round context of STATUS. -/
def statusRound (s : State) : List Byte :=
  let r := s.rng
  [byteOf r.round] ++ blockBytes (blockOfRound r) ++
    [withSpare (byteOf (phaseCode r.phase) ||| bitAt 6 r.saturated ||| bitAt 7 r.closed) 0x38 47 s.free] ++
    bytes3 (BitVec.ofNat 24 r.closePoint) ++
    [byteOf r.turn, byteOf (r.answering.getD 0),
     withSpare (byteOf (r.answerClock / 256) ||| bitAt 7 r.answerRunning) 0x60 53 s.free, byteOf r.answerClock,
     keyByte r.correctKey]

/-- The body of STATUS, 60 bytes (R204). -/
def statusBody (s : State) : List Byte :=
  statusIdentity s ++ statusMarkers s ++ statusTransmitter s ++ statusRound s ++
    bytes3 (BitVec.ofNat 24 s.rck.count) ++ [flagByte s.rck.running]

/-- STATUS (R198). -/
def execStatus (s : State) : Host.Outcome State Fault Refusal := command (fun s => answer 0x01 .ok (statusBody s) s) s

/-! ### Snapshot reads (R118, R136, R158, R194, R199) -/

/-- A team record's five bytes; bit 5 of the last is not named (R204). -/
def teamBytes (place n : Nat) (x : TeamRec) : List Byte :=
  bytes2 (BitVec.ofInt 16 x.total) ++
    [byteOf x.rights, byteOf x.wrongs,
     withSpare (bitAt 7 x.unconfirmed ||| bitAt 6 x.seated ||| byteOf x.rank) 0x20 place n]

/-- The body of READ_SCORES (R158). -/
def scoresBody (s : State) : List Byte :=
  byteOf (s.scu.records.countP TeamRec.seated) ::
    (s.scu.records.mapIdx fun i x => teamBytes (10 + 5 * i) s.free x).flatten

/-- READ_SCORES (R158). -/
def execReadScores (s : State) : Host.Outcome State Fault Refusal := command (fun s => answer 0x02 .ok (scoresBody s) s) s

/-- The code of an entry's outcome, 0 for none (R204). -/
def entryOutcomeCode : Option TurnOutcome → Byte
  | none => 0
  | some o => outcomeCode o

/-- A claim entry's seven bytes (R204); bit 2 of the sixth is 0 (log 32). -/
def entryBytes (es : List Entry) (e : Entry) : List Byte :=
  [byteOf e.team, byteOf e.desk] ++ bytes3 (BitVec.ofNat 24 e.stamp) ++
    [(byteOf (statusCode e.status) <<< 5) ||| (byteOf e.level <<< 3) ||| bitAt 1 e.late ||| bitAt 0 e.adopted,
     (entryOutcomeCode e.outcome <<< 5) ||| byteOf ((queuePosition e.team es).getD 0)]

/-- The body of READ_CLAIMS (R118). -/
def claimsBody (s : State) : List Byte :=
  [byteOf s.rng.round, byteOf s.clt.entries.length] ++ s.clt.entries.flatMap (entryBytes s.clt.entries)

/-- READ_CLAIMS (R118). -/
def execReadClaims (s : State) : Host.Outcome State Fault Refusal := command (fun s => answer 0x03 .ok (claimsBody s) s) s

/-- A choice record's six bytes (R204). -/
def choiceBytes (c : ChoiceRec) : List Byte :=
  [byteOf c.key] ++ bytes3 (BitVec.ofNat 24 c.stamp) ++ [byteOf c.desk, byteOf c.changes]

/-- The body of READ_CHOICES (R136). -/
def choicesBody (s : State) : List Byte :=
  [byteOf s.rng.round, keyByte s.rng.correctKey] ++ s.cht.records.flatMap choiceBytes

/-- READ_CHOICES (R136). -/
def execReadChoices (s : State) : Host.Outcome State Fault Refusal := command (fun s => answer 0x04 .ok (choicesBody s) s) s

/-- A presence entry's six bytes; bits 4 and 3 of the first are not named (R204). -/
def presenceBytes (place n : Nat) (e : PresEntry) : List Byte :=
  [withSpare
      (bitAt 7 e.heard ||| (roleCode e.role <<< 5) ||| bitAt 0 e.unsynced ||| bitAt 1 e.recovered ||| bitAt 2 e.unconfirmed)
      0x18 place n, byteOf e.team] ++ bytes2 e.tag ++ [byteOf e.lastRound, byteOf e.lastRoll]

/-- The body of READ_PRESENCE (R194). -/
def presenceBody (s : State) : List Byte :=
  seatedBytes s.prs.seated ++ (s.prs.entries.mapIdx fun i e => presenceBytes (7 + 6 * i) s.free e).flatten

/-- READ_PRESENCE (R194). -/
def execReadPresence (s : State) : Host.Outcome State Fault Refusal :=
  command (fun s => answer 0x05 .ok (presenceBody s) s) s

/-- The body of READ_ROLL_REPORT; without a roll in progress its current id has no code: a free value (R194; log 11). -/
def rollBody (s : State) : List Byte :=
  let x := s.cnf
  [flagByte x.report.valid, byteOf x.report.id, byteOf x.report.window, byteOf x.report.count] ++
    deskSetBytes x.report.desks ++
    [flagByte (x.rollState == .polling),
     match x.currentRoll with
      | some id => byteOf id
      | none => Config.unnamedBits 18 s.free] ++ deskSetBytes x.replySet

/-- READ_ROLL_REPORT (R194). -/
def execReadRollReport (s : State) : Host.Outcome State Fault Refusal :=
  command (fun s => answer 0x06 .ok (rollBody s) s) s

/-- A fault record's twelve bytes (R52, R204). -/
def faultBytes (r : FaultRec) : List Byte :=
  [causeCode r.cause, flagByte r.escalated] ++ r.history.map txCode ++ [byteOf r.round] ++
    bytes3 (BitVec.ofNat 24 r.clock) ++ [byteOf r.cls, byteOf r.attempts]

/-- The body of READ_FAULTS (R199). -/
def faultsBody (s : State) : List Byte := byteOf s.lcu.log.length :: s.lcu.log.flatMap faultBytes

/-- READ_FAULTS (R199). -/
def execReadFaults (s : State) : Host.Outcome State Fault Refusal := command (fun s => answer 0x07 .ok (faultsBody s) s) s

/-- CLEAR_FAULTS (R54, R199). -/
def execClearFaults (s : State) : Host.Outcome State Fault Refusal :=
  command (fun s => answer 0x08 .ok [byteOf s.lcu.log.length] (s.withLcu { s.lcu with log := [] })) s

/-! ### Events (R200 to R202) -/

/-- READ_EVENTS (R201). -/
def execReadEvents (s : State) : Host.Outcome State Fault Refusal :=
  command (fun s => answer 0x09 .ok (flagSetBytes s.cmp.flags 5 s.free ++ flagSetBytes s.cmp.mask 7 s.free) s) s

/-- The flags left by a clear. -/
def clearedFlags (flags named : BitVec 14) : BitVec 14 := flags &&& ~~~named

/-- CLEAR_EVENTS (R201). -/
def execClearEvents (arg : Half) (s : State) : Host.Outcome State Fault Refusal :=
  command
    (fun s =>
      answer 0x0A .ok
        (flagSetBytes s.cmp.flags 5 s.free ++ flagSetBytes (clearedFlags s.cmp.flags (namedFlags arg)) 7 s.free)
        (s.withCmp { s.cmp with flags := clearedFlags s.cmp.flags (namedFlags arg) })) s

/-- SET_EVENT_MASK (R202). -/
def execSetEventMask (arg : Half) (s : State) : Host.Outcome State Fault Refusal :=
  command
    (fun s => answer 0x0B .ok (flagSetBytes (namedFlags arg) 5 s.free) (s.withCmp { s.cmp with mask := namedFlags arg })) s

/-! ### The store (R7 to R9) -/

/-- The reply of STORE_READ: UNKNOWN, BUSY, or the row (R7). -/
def storeRead (row : Byte) (s : State) : State :=
  match s.sto.getRow row.toNat with
  | none => answer 0x0C .unknown [] s
  | some value => if s.sto.busy then answer 0x0C .busy [] s else answer 0x0C .ok (row :: bytes2 value) s

/-- STORE_READ (R7). -/
def execStoreRead (row : Byte) (s : State) : Host.Outcome State Fault Refusal := command (storeRead row) s

/-- STORE_WRITE: UNKNOWN, BUSY, PROTECTED, or the timed write begins (R8, R9). -/
def storeWrite (row : Byte) (value : Half) (setup : Bool) (s : State) : State :=
  if 3 < row.toNat then answer 0x0D .unknown [] s
  else if s.sto.busy then answer 0x0D .busy [] s
  else if setup = false then answer 0x0D .protected_ [] s
  else
    answer 0x0D .ok []
      (s.withSto { s.sto with busy := true, write := some (row.toNat, value), timer := .running Config.storeWriteUs })

/-- STORE_WRITE (R8). -/
def execStoreWrite (row : Byte) (value : Half) (setup : Bool) (s : State) : Host.Outcome State Fault Refusal :=
  command (storeWrite row value setup) s

/-- RESTART: the reset, at the rising edge of CS_N that takes the command (R15, R196, R199). -/
def execRestart (role1 role0 : Bool) (s : State) : Host.Outcome State Fault Refusal :=
  if shifting s then .next (resetState .restart role1 role0 true s) else .next s

end Sys2Proof.Machine
end

