-- ==== Sys2Proof/WellFormed.lean ====
section
/-! DEFINITION. The operands that the spec admits for each step. A step outside them describes nothing that can happen on the
line or at the port; its meaning leaves the state as it is (log 6). -/

namespace Sys2Proof

open Sys2Proof.Machine

/-- The number of cells of a frame from the first contention cell to the last CRC cell, with the length field as read
(R23, R25). -/
def isFrameLength (n : Nat) : Bool := decide (39 ≤ n) && (n - 39) % 8 == 0 && decide (n ≤ 287)

/-- The cells of the longest frame the part sends, an OPEN, up to its last CRC cell (R24). -/
def longestFrame : Nat := 191

/-- Well-formed steps. -/
def wellFormed : Instr → Bool
  | .arbitrationLost cell => decide (cell < contentionCells)
  | .bitMismatch cell _ => decide (cell < longestFrame)
  | .frameDiscarded cells _ _ => isFrameLength cells.length
  | .objectionRunBegun cells => beginsRun (cells.map readCell)
  | .unknownCommand code args => isUnknown code args
  | .powerOnReset .. | .resetN .. | .loadingReadEnd | .joiningIdleWaitEnd | .storeWriteEnd => true
  | .lineIdle | .arbitrationWon | .slotsReached | .lineFault | .recoveryQuietEnd | .recoveryDeadline
  | .faultMemoryExpiry | .lineLevelChange .. | .startMarkRecognized => true
  | .openTaken .. | .closeTaken .. | .verdictTaken .. | .passTaken .. | .claimTaken .. | .choiceTaken .. | .tallyTaken ..
  | .revealTaken .. | .rollTaken .. | .presentTaken .. | .helloTaken .. => true
  | .roundClockTick | .armReached | .windowEnd | .roundClockSaturation | .settleDeadline | .settleOut | .answerClockStep
  | .answerClockExpiry => true
  | .inputFallingEdge _ | .inputRisingEdge _ | .pressAccepted _ | .releaseAccepted _ | .passHoldEnd => true
  | .jumpLockEnd | .droppedFrameFlashEnd | .blinkBaseHalfPeriod | .displayUpdateEnd | .rollWindowExpiry => true
  | .transferStart | .nop | .status | .readScores | .readClaims | .readChoices | .readPresence | .readRollReport
  | .readFaults | .clearFaults | .readEvents | .clearEvents _ | .setEventMask _ | .storeRead _ | .storeWrite ..
  | .restart .. | .transferEndNoCommand => true
  | .openRound _ | .closeRound | .verdictCommand .. | .revealCommand _ | .setTotal .. | .adjust .. | .sendTally
  | .rollCall _ | .clearRollReport => true

end Sys2Proof
end

