-- ==== Sys2Proof/Decode.lean ====
section
/-! DEFINITION. No row of the table has bits, so no word spells a step. Beside that, the port's reading of a transfer's bytes
(R195, R204), and the bytes of each command. -/

namespace Sys2Proof

open Sys2Proof.Machine

/-- The step that a word spells by the table's bits: no row gives any. -/
def decodeTableWord (_nbits _w : Nat) : Option Instr := none

/-- The command whose code has these argument bytes, in the number its code fixes; `setup`, `role1` and `role0` are the pins
that STORE_WRITE and RESTART read (R195, R204). -/
def decodeArgs (setup role1 role0 : Bool) (code : Nat) (args : List Byte) : Option Instr :=
  match code, args with
  | 0x00, [] => some .nop
  | 0x01, [] => some .status
  | 0x02, [] => some .readScores
  | 0x03, [] => some .readClaims
  | 0x04, [] => some .readChoices
  | 0x05, [] => some .readPresence
  | 0x06, [] => some .readRollReport
  | 0x07, [] => some .readFaults
  | 0x08, [] => some .clearFaults
  | 0x09, [] => some .readEvents
  | 0x0A, [a, b] => some (.clearEvents (half a b))
  | 0x0B, [a, b] => some (.setEventMask (half a b))
  | 0x0C, [row] => some (.storeRead row)
  | 0x0D, [row, a, b] => some (.storeWrite row (half a b) setup)
  | 0x0E, [] => some (.restart role1 role0)
  | 0x20, args => (parseBlock args).map .openRound
  | 0x21, [] => some .closeRound
  | 0x22, [o, e] => some (.verdictCommand o e)
  | 0x23, [k] => some (.revealCommand k)
  | 0x24, [t, a, b] => some (.setTotal t (half a b))
  | 0x25, [t, a, b] => some (.adjust t (half a b))
  | 0x26, [] => some .sendTally
  | 0x27, [w] => some (.rollCall w)
  | 0x28, [] => some .clearRollReport
  | _, _ => none

/-- The step a transfer ends with, by its whole bytes: no byte takes no command, an unknown code or a short argument list is
UNKNOWN, bytes beyond the arguments are ignored (R195). -/
def decodeTransfer (setup role1 role0 : Bool) : List Byte → Instr
  | [] => .transferEndNoCommand
  | code :: args =>
    match argumentCount code.toNat with
    | none => .unknownCommand code args
    | some n =>
      if args.length < n then .unknownCommand code args
      else (decodeArgs setup role1 role0 code.toNat (args.take n)).getD (.unknownCommand code args)

/-- The whole bytes of what SDI carried, eight bits each, most significant first; a partial byte at the end is discarded
(R195). -/
def shiftedBytes (bits : List Bool) : List Byte := bytesOfBits (bits.length / 8) bits

/-- The step a transfer ends with, by the bits read from SDI (R195). -/
def decodeShifted (setup role1 role0 : Bool) (bits : List Bool) : Instr :=
  decodeTransfer setup role1 role0 (shiftedBytes bits)

/-- The command record of a port command, none for a step that is no command (R204). -/
def encodeCommand : Instr → Option (List Byte)
  | .nop => some [0x00]
  | .status => some [0x01]
  | .readScores => some [0x02]
  | .readClaims => some [0x03]
  | .readChoices => some [0x04]
  | .readPresence => some [0x05]
  | .readRollReport => some [0x06]
  | .readFaults => some [0x07]
  | .clearFaults => some [0x08]
  | .readEvents => some [0x09]
  | .clearEvents f => some (0x0A :: bytes2 f)
  | .setEventMask f => some (0x0B :: bytes2 f)
  | .storeRead row => some [0x0C, row]
  | .storeWrite row v _ => some (0x0D :: row :: bytes2 v)
  | .restart _ _ => some [0x0E]
  | .openRound b => some (0x20 :: blockBytes b)
  | .closeRound => some [0x21]
  | .verdictCommand o e => some [0x22, o, e]
  | .revealCommand k => some [0x23, k]
  | .setTotal t v => some (0x24 :: t :: bytes2 v)
  | .adjust t v => some (0x25 :: t :: bytes2 v)
  | .sendTally => some [0x26]
  | .rollCall w => some [0x27, w]
  | .clearRollReport => some [0x28]
  | .unknownCommand code args => some (code :: args)
  | _ => none

/-- The frame that a taking carries, none for any other step (R203). -/
def takenFrame : Instr → Option Frame
  | .openTaken d r b => some ⟨d, r, .open_ b⟩
  | .closeTaken d r p => some ⟨d, r, .close p⟩
  | .verdictTaken d r t m o c => some ⟨d, r, .verdict t m o c⟩
  | .passTaken d r t m => some ⟨d, r, .pass t m⟩
  | .claimTaken d r x m => some ⟨d, r, .claim x m⟩
  | .choiceTaken d r x k m => some ⟨d, r, .choice x k m⟩
  | .tallyTaken d r p a b c e => some ⟨d, r, .tally p a b c e⟩
  | .revealTaken d r k => some ⟨d, r, .reveal k⟩
  | .rollTaken d r i w => some ⟨d, r, .roll i w⟩
  | .presentTaken d r o m i f => some ⟨d, r, .present o m i f⟩
  | .helloTaken d r o m t => some ⟨d, r, .hello o m t⟩
  | _ => none

/-- The taking of a frame. -/
def takingOf (f : Frame) : Instr :=
  match f.body with
  | .open_ b => .openTaken f.desk f.round b
  | .close p => .closeTaken f.desk f.round p
  | .verdict t m o c => .verdictTaken f.desk f.round t m o c
  | .pass t m => .passTaken f.desk f.round t m
  | .claim x m => .claimTaken f.desk f.round x m
  | .choice x k m => .choiceTaken f.desk f.round x k m
  | .tally p a b c d => .tallyTaken f.desk f.round p a b c d
  | .reveal k => .revealTaken f.desk f.round k
  | .roll i w => .rollTaken f.desk f.round i w
  | .present r m i g => .presentTaken f.desk f.round r m i g
  | .hello r m t => .helloTaken f.desk f.round r m t

end Sys2Proof
end

