-- ==== Sys2Proof/Machine/Console.lean ====
section
/-! DEFINITION. The nine console commands (09): checks in the order of R159, frames handed, replies. -/

namespace Sys2Proof.Machine

/-- The line outcome of an accepted command: 0 QUEUED, 1 DROPPED; ALREADY_QUEUED gives none, the command is refused PENDING
(R159, R204). -/
def lineOutcome : Answer → Option Byte
  | .queued | .replaced => some 0
  | .dropped | .noPlace => some 1
  | .already _ => none

/-- The role check that every console command passes first (R159). -/
def consoleCommand (code : Byte) (f : State → State) (s : State) : Host.Outcome State Fault Refusal :=
  command (fun s => if consoleStation s then f s else answer code .wrongRole [] s) s

/-- A command that hands one frame: refused PENDING on ALREADY_QUEUED, else `effect` on the state after the hand-over, and
OK with `body` and the line outcome (R159). -/
def handCommand (code : Byte) (c : Content) (body : List Byte) (effect : State → State) (s : State) : State :=
  match lineOutcome (handAnswer c s) with
  | none => answer code .pending [] s
  | some out => answer code .ok (body ++ [out]) (effect (handOver c .cnf s))

/-! ### OPEN_ROUND, CLOSE_ROUND, REVEAL (R160, R161, R163) -/

/-- The next round or roll number: 255 is followed by 1 (R160, R191). -/
def nextNumber (n : Nat) : Nat := if n = 255 then 1 else n + 1

/-- OPEN_ROUND at a working console (R160). -/
def openRound (block : OpenBlock) (s : State) : State :=
  if s.rng.phase = .unsynced ∨ s.rng.phase = .ended then
    let n := nextNumber s.cnf.lastRound
    handCommand 0x20 (.open_ (byteOf n) (clampBlock block)) [byteOf n] (fun t => t.withCnf { t.cnf with lastRound := n }) s
  else answer 0x20 .badState [] s

/-- OPEN_ROUND (R160). -/
def execOpenRound (block : OpenBlock) (s : State) : Host.Outcome State Fault Refusal :=
  consoleCommand 0x20 (openRound block) s

/-- CLOSE_ROUND at a working console (R161). -/
def closeRound (s : State) : State :=
  if s.rng.phase = .reading ∨ s.rng.phase.claiming = true then
    handCommand 0x21 (.close (BitVec.ofNat 24 s.rck.count)) [] id s
  else answer 0x21 .badState [] s

/-- CLOSE_ROUND (R161). -/
def execCloseRound (s : State) : Host.Outcome State Fault Refusal := consoleCommand 0x21 closeRound s

/-- REVEAL at a working console (R163). -/
def revealRound (key : Byte) (s : State) : State :=
  if 4 < key.toNat then answer 0x23 .unknown [] s
  else if s.rng.phase = .closing then handCommand 0x23 (.reveal key) [] id s
  else answer 0x23 .badState [] s

/-- REVEAL (R163). -/
def execRevealCommand (key : Byte) (s : State) : Host.Outcome State Fault Refusal :=
  consoleCommand 0x23 (revealRound key) s

/-! ### VERDICT (R86, R162) -/

/-- The outcome a VERDICT command may carry (R162). -/
def hostOutcome (code : Byte) : Option TurnOutcome :=
  match outcomeOfCode code.toNat with
  | some .right => some .right
  | some .wrong => some .wrong
  | some .void => some .void
  | _ => none

/-- The checks of R162 on turn, phase and marker; none when the command is accepted. -/
def verdictRefusal (expected : Byte) (s : State) : Option ReplyCode :=
  if expected ≠ 0 ∧ min 16 expected.toNat ≠ s.rng.turn then some .late
  else if s.rng.phase = .held then some .late
  else if s.rng.phase ≠ .turn then some .badState
  else if s.cnf.verdictPending.isSome then some .pending
  else none

/-- What a host VERDICT's hand-over does: on QUEUED the marker is set with kind HOST and the answer clock stops, on DROPPED
nothing more (R86, R162). -/
def hostVerdictHanded (a : Answer) (turn : Nat) (s : State) : State :=
  match a with
  | .queued | .replaced =>
    (s.withCnf { s.cnf with verdictPending := some turn, verdictKind := .host }).withRng { s.rng with answerRunning := false }
  | .already _ | .dropped | .noPlace => s

/-- VERDICT at a working console (R162). -/
def hostVerdict (outcome expected : Byte) (s : State) : State :=
  match hostOutcome outcome, verdictRefusal expected s with
  | none, _ => answer 0x22 .unknown [] s
  | some _, some rc => answer 0x22 rc [] s
  | some o, none =>
    let c := Content.verdict (byteOf s.rng.turn) (byteOf (s.rng.answering.getD 0)) o none
    handCommand 0x22 c [] (hostVerdictHanded (handAnswer c s) s.rng.turn) s

/-- VERDICT (R162). -/
def execVerdictCommand (outcome expected : Byte) (s : State) : Host.Outcome State Fault Refusal :=
  consoleCommand 0x22 (hostVerdict outcome expected) s

/-! ### SET_TOTAL, ADJUST, SEND_TALLY (R170 to R174) -/

/-- The code of a page outcome (R204). -/
def PageOutcome.code : PageOutcome → Byte
  | .queued => 0
  | .waiting => 1
  | .dirty => 2
  | .notHanded => 3

/-- The page of a team (R171). -/
def pageOf (team : Nat) : Fin 4 := Fin.ofNat 4 ((team - 1) / 4)

/-- A correction made: the team's page asked for, its outcome in the reply (R171, R172). -/
def correct (code : Byte) (team : Nat) (body : List Byte) (s : State) : State :=
  answer code .ok (body ++ [(pageOutcome (pageOf team) s).code]) (requestPage (pageOf team) s)

/-- SET_TOTAL at a working console (R171). -/
def setTotal (team : Byte) (value : Half) (s : State) : State :=
  if isTeam team.toNat then
    let t := setTotalOp team.toNat value.toInt s
    correct 0x24 team.toNat (team :: bytes2 (BitVec.ofInt 16 (t.scu.team team.toNat).total)) t
  else answer 0x24 .unknown [] s

/-- SET_TOTAL (R171). -/
def execSetTotal (team : Byte) (value : Half) (s : State) : Host.Outcome State Fault Refusal :=
  consoleCommand 0x24 (setTotal team value) s

/-- An ADJUST delta clamped to −19,998..+19,998 (R172). -/
def clampDelta (x : Int) : Int := max (-19998) (min 19998 x)

/-- ADJUST at a working console (R172). -/
def adjust (team : Byte) (delta : Half) (s : State) : State :=
  if isTeam team.toNat then
    let t := adjustOp team.toNat (clampDelta delta.toInt) s
    correct 0x25 team.toNat
      (team :: (bytes2 (BitVec.ofInt 16 (s.scu.team team.toNat).total) ++
        bytes2 (BitVec.ofInt 16 (t.scu.team team.toNat).total))) t
  else answer 0x25 .unknown [] s

/-- ADJUST (R172). -/
def execAdjust (team : Byte) (delta : Half) (s : State) : Host.Outcome State Fault Refusal :=
  consoleCommand 0x25 (adjust team delta) s

/-- SEND_TALLY at a working console: the four pages in page order, each outcome as its own request met it (R174). -/
def sendTally (s : State) : State :=
  let a := requestPage 0 s
  let b := requestPage 1 a
  let c := requestPage 2 b
  answer 0x26 .ok
    [(pageOutcome 0 s).code, (pageOutcome 1 a).code, (pageOutcome 2 b).code, (pageOutcome 3 c).code] (requestPage 3 c)

/-- SEND_TALLY (R174). -/
def execSendTally (s : State) : Host.Outcome State Fault Refusal := consoleCommand 0x26 sendTally s

/-! ### ROLL_CALL, CLEAR_ROLL_REPORT (R164, R191, R193) -/

/-- ROLL_CALL at a working console (R164, R191). -/
def rollCall (window : Byte) (s : State) : State :=
  if s.cnf.rollState = .polling then answer 0x27 .busy [] s
  else
    let id := nextNumber s.cnf.lastRollId
    handCommand 0x27 (.roll (byteOf id) (byteOf (clamp 5 255 window.toNat))) [byteOf id]
      (fun t => t.withCnf { t.cnf with lastRollId := id }) s

/-- ROLL_CALL (R164). -/
def execRollCall (window : Byte) (s : State) : Host.Outcome State Fault Refusal := consoleCommand 0x27 (rollCall window) s

/-- CLEAR_ROLL_REPORT (R164, R193). -/
def execClearRollReport (s : State) : Host.Outcome State Fault Refusal :=
  consoleCommand 0x28
    (fun s => answer 0x28 .ok [] (s.withCnf { s.cnf with report := { s.cnf.report with valid := false } })) s

end Sys2Proof.Machine
end

