-- ==== Sys2Proof/Machine/Dispatch.lean ====
section
/-! DEFINITION. One arm per step of the table: the meaning of each. -/

namespace Sys2Proof.Machine

def exec (i : Instr) (s : State) : Host.Outcome State Fault Refusal :=
  match i with
  | .powerOnReset role1 role0 => Sys2Proof.Machine.execPowerOnReset role1 role0 s
  | .resetN role1 role0 => Sys2Proof.Machine.execResetN role1 role0 s
  | .loadingReadEnd => Sys2Proof.Machine.execLoadingReadEnd s
  | .joiningIdleWaitEnd => Sys2Proof.Machine.execJoiningIdleWaitEnd s
  | .storeWriteEnd => Sys2Proof.Machine.execStoreWriteEnd s
  | .lineIdle => Sys2Proof.Machine.execLineIdle s
  | .arbitrationLost cell => Sys2Proof.Machine.execArbitrationLost cell s
  | .arbitrationWon => Sys2Proof.Machine.execArbitrationWon s
  | .bitMismatch cell pulse => Sys2Proof.Machine.execBitMismatch cell pulse s
  | .slotsReached => Sys2Proof.Machine.execSlotsReached s
  | .frameDiscarded cells ack objection => Sys2Proof.Machine.execFrameDiscarded cells ack objection s
  | .lineFault => Sys2Proof.Machine.execLineFault s
  | .recoveryQuietEnd => Sys2Proof.Machine.execRecoveryQuietEnd s
  | .recoveryDeadline => Sys2Proof.Machine.execRecoveryDeadline s
  | .faultMemoryExpiry => Sys2Proof.Machine.execFaultMemoryExpiry s
  | .openTaken desk round block => Sys2Proof.Machine.execOpenTaken desk round block s
  | .closeTaken desk round point => Sys2Proof.Machine.execCloseTaken desk round point s
  | .verdictTaken desk round turn team outcome check => Sys2Proof.Machine.execVerdictTaken desk round turn team outcome check s
  | .passTaken desk round turn team => Sys2Proof.Machine.execPassTaken desk round turn team s
  | .claimTaken desk round stamp team => Sys2Proof.Machine.execClaimTaken desk round stamp team s
  | .choiceTaken desk round stamp key team => Sys2Proof.Machine.execChoiceTaken desk round stamp key team s
  | .tallyTaken desk round page total1 total2 total3 total4 => Sys2Proof.Machine.execTallyTaken desk round page total1 total2 total3 total4 s
  | .revealTaken desk round key => Sys2Proof.Machine.execRevealTaken desk round key s
  | .rollTaken desk round id window => Sys2Proof.Machine.execRollTaken desk round id window s
  | .presentTaken desk round role team id flags => Sys2Proof.Machine.execPresentTaken desk round role team id flags s
  | .helloTaken desk round role team tag => Sys2Proof.Machine.execHelloTaken desk round role team tag s
  | .roundClockTick => Sys2Proof.Machine.execRoundClockTick s
  | .armReached => Sys2Proof.Machine.execArmReached s
  | .windowEnd => Sys2Proof.Machine.execWindowEnd s
  | .roundClockSaturation => Sys2Proof.Machine.execRoundClockSaturation s
  | .settleDeadline => Sys2Proof.Machine.execSettleDeadline s
  | .settleOut => Sys2Proof.Machine.execSettleOut s
  | .answerClockStep => Sys2Proof.Machine.execAnswerClockStep s
  | .answerClockExpiry => Sys2Proof.Machine.execAnswerClockExpiry s
  | .inputFallingEdge input => Sys2Proof.Machine.execInputFallingEdge input s
  | .inputRisingEdge input => Sys2Proof.Machine.execInputRisingEdge input s
  | .pressAccepted input => Sys2Proof.Machine.execPressAccepted input s
  | .releaseAccepted input => Sys2Proof.Machine.execReleaseAccepted input s
  | .passHoldEnd => Sys2Proof.Machine.execPassHoldEnd s
  | .jumpLockEnd => Sys2Proof.Machine.execJumpLockEnd s
  | .droppedFrameFlashEnd => Sys2Proof.Machine.execDroppedFrameFlashEnd s
  | .blinkBaseHalfPeriod => Sys2Proof.Machine.execBlinkBaseHalfPeriod s
  | .displayUpdateEnd => Sys2Proof.Machine.execDisplayUpdateEnd s
  | .rollWindowExpiry => Sys2Proof.Machine.execRollWindowExpiry s
  | .transferStart => Sys2Proof.Machine.execTransferStart s
  | .unknownCommand code args => Sys2Proof.Machine.execUnknownCommand code args s
  | .nop => Sys2Proof.Machine.execNop s
  | .status => Sys2Proof.Machine.execStatus s
  | .readScores => Sys2Proof.Machine.execReadScores s
  | .readClaims => Sys2Proof.Machine.execReadClaims s
  | .readChoices => Sys2Proof.Machine.execReadChoices s
  | .readPresence => Sys2Proof.Machine.execReadPresence s
  | .readRollReport => Sys2Proof.Machine.execReadRollReport s
  | .readFaults => Sys2Proof.Machine.execReadFaults s
  | .clearFaults => Sys2Proof.Machine.execClearFaults s
  | .readEvents => Sys2Proof.Machine.execReadEvents s
  | .clearEvents flags => Sys2Proof.Machine.execClearEvents flags s
  | .setEventMask flags => Sys2Proof.Machine.execSetEventMask flags s
  | .storeRead row => Sys2Proof.Machine.execStoreRead row s
  | .storeWrite row value setup => Sys2Proof.Machine.execStoreWrite row value setup s
  | .restart role1 role0 => Sys2Proof.Machine.execRestart role1 role0 s
  | .openRound block => Sys2Proof.Machine.execOpenRound block s
  | .closeRound => Sys2Proof.Machine.execCloseRound s
  | .verdictCommand outcome expected => Sys2Proof.Machine.execVerdictCommand outcome expected s
  | .revealCommand key => Sys2Proof.Machine.execRevealCommand key s
  | .setTotal team value => Sys2Proof.Machine.execSetTotal team value s
  | .adjust team delta => Sys2Proof.Machine.execAdjust team delta s
  | .sendTally => Sys2Proof.Machine.execSendTally s
  | .rollCall window => Sys2Proof.Machine.execRollCall window s
  | .clearRollReport => Sys2Proof.Machine.execClearRollReport s
  | .lineLevelChange change => Sys2Proof.Machine.execLineLevelChange change s
  | .startMarkRecognized => Sys2Proof.Machine.execStartMarkRecognized s
  | .objectionRunBegun cells => Sys2Proof.Machine.execObjectionRunBegun cells s
  | .transferEndNoCommand => Sys2Proof.Machine.execTransferEndNoCommand s

end Sys2Proof.Machine
end

