-- ==== Sys2Proof/Safety.lean ====
section
/-! DEFINITION. What a sound state is: the properties that the spec gives every station at every instant. -/

namespace Sys2Proof.Safety

open Sys2Proof.Machine

/-- The claim list's order: granted entries before waiting ones, the waiting part in key order, one entry for a team 1..16, an
ANSWERING entry only as the last of the granted part (R97, R99, R100). -/
abbrev ListOrdered (es : List Entry) : Prop :=
  grantedPart es ++ waitingPart es = es ∧ (waitingPart es).Pairwise (fun a b => keyBefore a b = true) ∧
    (es.map Entry.team).Nodup ∧ (∀ e ∈ es, isTeam e.team = true) ∧
    ∀ e ∈ (grantedPart es).dropLast, e.status ≠ .answering

/-- The ANSWERING entry is the answering team's (R84, R87, R107). -/
abbrev AnswerAgrees (r : Rng) (es : List Entry) : Prop :=
  (∀ e ∈ es, e.status = .answering → r.answering = some e.team) ∧
    (r.answering.all fun t => es.any fun e => e.team == t && e.status == .answering) = true

/-- The claim list as R99 has it, agreeing with the round engine. -/
abbrev ClaimsSound (s : State) : Prop := ListOrdered s.clt.entries ∧ AnswerAgrees s.rng s.clt.entries

/-- A team record within its bounds (R137, R139). -/
abbrev RecordInRange (x : TeamRec) : Prop :=
  -Config.totalMax ≤ x.total ∧ x.total ≤ Config.totalMax ∧ x.rights ≤ Config.countMax ∧ x.wrongs ≤ Config.countMax

/-- The scoreboard: sixteen records in range, the seated fields those of the presence table's set, every rank as R156 has it
from the totals and the seated fields (R155, R156). -/
abbrev ScoresSound (s : State) : Prop :=
  s.scu.records.length = 16 ∧ (∀ x ∈ s.scu.records, RecordInRange x) ∧
    s.scu.records.map TeamRec.seated = ((List.range 16).map fun i => s.prs.seated.contains (i + 1)) ∧
    ∀ x ∈ s.scu.records, x.rank = rankOf s.scu.records x

/-- A queued frame: its content belongs to its place, its count is under four, only a frame in attempt is marked for withdrawal or
holds pending content, and only a CHOICE does (R35, R37, R39, R43). -/
abbrev FrameSound (f : QFrame) : Prop :=
  f.content.place = f.place ∧ f.attempts < Config.maxAttempts ∧
    (∀ c ∈ f.pending.toList, c.place = f.place ∧ f.place = .choice) ∧
    (f.inAttempt = false → f.withdrawn = false ∧ f.pending = none)

/-- How many frames are in attempt. -/
abbrev inAttemptCount (s : State) : Nat := s.lcu.queue.countP QFrame.inAttempt

/-- Is a frame in attempt in this transmitter state (R41)? -/
def attemptState : TxState → Bool
  | .contending | .sending | .slots => true
  | .idle | .waiting | .recovering | .halted | .muted => false

/-- What the transmitter's state says of the queue: empty in IDLE, HALTED and MUTED, not empty in WAITING, one frame in attempt
in CONTENDING, SENDING and SLOTS and none otherwise (R41, R45, R49, R50). -/
abbrev TxAgrees (s : State) : Prop :=
  (s.lcu.tx = .idle ∨ s.lcu.tx.shut = true → s.lcu.queue = []) ∧ (s.lcu.tx = .waiting → s.lcu.queue ≠ []) ∧
    inAttemptCount s = (attemptState s.lcu.tx).toNat

/-- The transmit queue: places in class order and never two frames of one, only the role's places, sound frames, agreement with
the transmitter; a station not at work has an IDLE transmitter, a muted one never works (R14, R35, R36, R41, R49, R50). -/
abbrev QueueSound (s : State) : Prop :=
  (s.lcu.queue.map fun f => f.place.index).Pairwise (· < ·) ∧
    (∀ f ∈ s.lcu.queue, s.suu.identity.role.hasPlace f.place = true ∧ FrameSound f) ∧ TxAgrees s ∧
    (s.suu.startUp.atWork = false → s.lcu.tx = .idle) ∧ (s.suu.muted = true → s.lcu.tx.shut = true)

/-- The bounds of the identity record, the round context, the clock and the fault log (R2, R4, R51, R52, R55, R73, R76, R91). -/
abbrev BoundsSound (s : State) : Prop :=
  s.rck.count ≤ Config.clockMax ∧ s.rng.turn ≤ Config.maxTurn ∧
    (s.rng.phase = .unsynced ∨ s.rng.phase = .reading → s.rng.turn = 0) ∧
    (s.rng.phase = .live → s.rng.turn < Config.maxTurn) ∧ s.rng.answerClock ≤ 6000 ∧ s.rng.answerTime ≤ 6000 ∧
    s.rng.closePoint ≤ Config.clockMax ∧ s.lcu.log.length ≤ Config.faultLogSize ∧ s.lcu.history.length = 4 ∧
    s.suu.identity.filterMs ∈ [1, 2, 4, 8] ∧ 5 ≤ s.suu.identity.passHold ∧ s.suu.identity.passHold ≤ 25 ∧
    s.suu.identity.desk < 64 ∧ s.suu.identity.team < 32

/-- The outputs: lamp patterns, display content, IRQ_N and LTX are those of the state, and a content not yet sent has an update
running before it (R16, R176 to R186, R202). -/
abbrev OutputsAgree (s : State) : Prop :=
  s.pnl.lamps = lampsOf s ∧ s.pnl.fault = faultPattern s ∧
    s.pnl.lampOut = pinsOf s.pnl.blink s.pnl.lamps s.pnl.fault ∧ s.pnl.content = contentOf s ∧
    (s.pnl.content = s.pnl.lastSent ∨ s.pnl.update.on = true) ∧ s.cmp.irqN = irqLevel s.cmp.flags s.cmp.mask ∧
    s.ltx = driveOf s

/-- The lists that stand for tables and sets: sixteen choice records; 64 presence entries, one not heard in its reset state,
the seated set that of the entries; sets strictly rising (R121, R173, R187, R189, R190, R193). -/
abbrev TablesSound (s : State) : Prop :=
  s.cht.records.length = 16 ∧ s.prs.entries.length = 64 ∧ (∀ e ∈ s.prs.entries, e.heard = false → e = .reset) ∧
    s.prs.seated = seatedTeams s.prs.entries ∧
    s.cnf.dirty.Pairwise (· < ·) ∧ s.cnf.replySet.Pairwise (· < ·) ∧ s.cnf.report.desks.length = s.cnf.report.count

/-! ### Frames: what a step leaves alone -/

/-- The parts of the state that a frame names. -/
inductive Block where
  | suu | sto | lif | lcu | rck | icu | rng | clt | cht | scu | cnf | prs | pnl | cmp | free
  deriving DecidableEq, Repr

/-- The display follows its content: an update begins when the content differs from the one last sent and none is running
(R177). -/
def DisplayFollows (s t : State) : Prop :=
  if t.pnl.content ≠ s.pnl.lastSent ∧ s.pnl.update.on = false then
    t.pnl.lastSent = t.pnl.content ∧ t.pnl.update = .running Config.displayUpdateUs
  else t.pnl.lastSent = s.pnl.lastSent ∧ t.pnl.update = s.pnl.update

/-- A part unchanged. Of the panel: flash and blink base, the display following its content. Of the port: all but flags and
IRQ_N. -/
def Block.same : Block → State → State → Prop
  | .suu, s, t => t.suu = s.suu
  | .sto, s, t => t.sto = s.sto
  | .lif, s, t => t.lif = s.lif
  | .lcu, s, t => t.lcu = s.lcu
  | .rck, s, t => t.rck = s.rck
  | .icu, s, t => t.icu = s.icu
  | .rng, s, t => t.rng = s.rng
  | .clt, s, t => t.clt = s.clt
  | .cht, s, t => t.cht = s.cht
  | .scu, s, t => t.scu = s.scu
  | .cnf, s, t => t.cnf = s.cnf
  | .prs, s, t => t.prs = s.prs
  | .pnl, s, t => t.pnl.flash = s.pnl.flash ∧ t.pnl.blink = s.pnl.blink ∧ DisplayFollows s t
  | .cmp, s, t => t.cmp = { s.cmp with flags := t.cmp.flags, irqN := t.cmp.irqN }
  | .free, s, t => t.free = s.free

/-- The frame of a step: every part but the named ones is unchanged, the flags are those before and the raised ones, the
command queue is unchanged, the outputs are those of the new state. -/
structure StepFrame (changed : List Block) (raised : BitVec 14) (s t : State) : Prop where
  others : ∀ b, b ∉ changed → b.same s t
  flags : t.cmp.flags = s.cmp.flags ||| raised
  pending : t.pending = s.pending
  outputs : OutputsAgree t

/-- A flag set that names an event if its cause has occurred. -/
def raisedIf (cause : Bool) (e : Event) : BitVec 14 := if cause then e.flag else 0

/-! ### Resets -/

/-- What a reset leaves: every block at its reset state, the straps sampled, LTX released, the store's rows and the levels at the
pins kept (log 4), the reset reply held (R15, R16, R22, R54, R72, R73, R98, R121, R138, R175, R176, R187, R196). The mark of a
line fault already reported is cleared (log 28), SDO is released also with CS_N low (log 37). -/
def AfterReset (cause : ResetCause) (role1 role0 csN : Bool) (s t : State) : Prop :=
  t.suu = { Suu.reset with strap1 := role1, strap0 := role0 } ∧
    t.sto = { Sto.reset with row0 := s.sto.row0, row1 := s.sto.row1, row2 := s.sto.row2, row3 := s.sto.row3 } ∧
    t.lif = { Lif.reset with dominant := s.lif.dominant } ∧ t.lcu = .reset ∧ t.rck = .reset ∧
    t.icu.record = .reset ∧ t.icu.hold = .off ∧
    (∀ d, t.icu.input d = { low := (s.icu.input d).low, filter := .released, timer := .off }) ∧
    t.rng = .reset ∧ t.clt = .reset ∧ t.cht = .reset ∧ t.scu = .reset ∧ t.cnf = .reset ∧ t.prs = .reset ∧ t.pnl = .reset ∧
    t.cmp = { Cmp.reset with
      transfer := if csN then .waitSelect else .waitRelease, csN := csN,
      heldReply := [0x00, 0x06, 0xFF, 0x00, 0x00, cause.code] } ∧
    t.ltx = none ∧ t.pending = s.pending ∧ t.free = s.free

/-- Is this one of the three resets? -/
def isReset : Instr → Bool
  | .powerOnReset .. | .resetN .. | .restart .. => true
  | _ => false

/-- Is this the taking of an OPEN? -/
def isOpening : Instr → Bool
  | .openTaken .. => true
  | _ => false

/-- Is this one of the steps that score: a VERDICT, REVEAL or TALLY taken, SET_TOTAL, ADJUST (08)? -/
def isScoring : Instr → Bool
  | .verdictTaken .. | .revealTaken .. | .tallyTaken .. | .setTotal .. | .adjust .. => true
  | _ => false

/-! ### Takings -/

/-- Another station's frame, received here: at work, inside a frame whose cells read so far are this frame's, no attempt of
the station's own under way (R22, R32). -/
abbrev Receives (f : Frame) (s : State) : Prop :=
  canTake f s = true ∧ s.lcu.tx ≠ .slots ∧ f.desk.toNat ≠ s.suu.identity.desk

/-- The presence entries with the sender marked heard (R188). -/
abbrev heardEntries (f : Frame) (s : State) : List PresEntry :=
  s.prs.entries.modify f.desk.toNat fun e => { e with heard := true, lastRound := f.round.toNat }

/-- PRESENCE_CHANGED at a desk first heard (R188). -/
abbrev heardFlag (f : Frame) (s : State) : BitVec 14 :=
  raisedIf (!(s.prs.entry f.desk.toNat).heard) .presenceChanged

/-- The line interface in HUNT with idle seen clear, nothing kept of a frame (R19, R31). -/
abbrev hunted (x : Lif) : Lif :=
  { x with decode := .hunt, idleSeen := false, cells := [], opened := false, since := 0, ack := none }

/-- What every taking does at the line interface and in the presence table: HUNT, idle seen clear, the sender heard with the
frame's round (R31, R188). -/
def Received (f : Frame) (s t : State) : Prop :=
  t.lif = hunted s.lif ∧
    t.prs = { s.prs with entries := heardEntries f s }

/-- The line controller after a frame that does not concern it: only the fault log's note of a dominant period goes. -/
abbrev lcuIdle (s : State) : Lcu := { s.lcu with domFrame := none }

/-- The station's own frame of a place, in its slots (R13, R42). -/
abbrev TakesOwn (p : Place) (s : State) : Prop := s.lcu.tx = .slots ∧ ∃ g ∈ (attempted s).toList, g.place = p

/-- A frame taken here: another station's, received, or this station's own frame of that place. -/
abbrev Takes (p : Place) (f : Frame) (s : State) : Prop :=
  canTake f s = true ∧
    (s.lcu.tx ≠ .slots ∧ f.desk.toNat ≠ s.suu.identity.desk ∨ f.desk.toNat = s.suu.identity.desk ∧ TakesOwn p s)

/-- The history after entries to these states: each enters at the newest end and the oldest goes (R51). -/
def entered (states : List TxState) (history : List (Option TxState)) : List (Option TxState) :=
  states.foldl (fun h x => h.drop 1 ++ [some x]) history

/-- The line controller when a frame has been taken, of no place that holds pending content or a page: the station's own leaves
the queue, and IDLE or WAITING follows (R41, R42); another's does not concern it. -/
def lcuTaken (s : State) : Lcu :=
  let rest := s.lcu.queue.filter fun f => !f.inAttempt
  let tx : TxState := if rest = [] then .idle else .waiting
  if s.lcu.tx = .slots then
    { lcuIdle s with queue := rest, tx := tx, history := entered [tx] s.lcu.history }
  else lcuIdle s

/-- The console function when a VERDICT has been taken: at the taking of its own the marker is cleared, the kind kept (R165;
log 41). -/
def cnfTaken (s : State) : Cnf :=
  if s.suu.identity.role = .console ∧ s.lcu.tx = .slots then { s.cnf with verdictPending := none } else s.cnf

/-- The line controller without the frame of a place, not in attempt: a transmitter that then waits for nothing is IDLE (R39,
R41). -/
def lcuWithout (p : Place) (x : Lcu) : Lcu :=
  let q := x.queue.filter fun f => f.place != p
  if x.tx = .waiting ∧ q = [] then { x with queue := q, tx := .idle, history := entered [.idle] x.history }
  else { x with queue := q }

/-! ### What follows at the same instant (R84, R92, R93, R95) -/

/-- The grant to the head of the waiting part (R84, R107). -/
def Granted (m t : State) : Prop :=
  ∃ e rest, waitingPart m.clt.entries = e :: rest ∧
    t.clt.entries = grantedPart m.clt.entries ++ { e with status := .answering } :: rest ∧
    t.rng =
      { m.rng with
        turn := m.rng.turn + 1, answering := some e.team, answerClock := m.rng.answerTime, answerRunning := true,
        phase := .turn }

/-- The places of a station's own CLAIM, CHOICE and PASS (R95). -/
def ownPlace (p : Place) : Bool := p == .claim || p == .choice || p == .pass

/-- The queue after the withdrawal of these: one in attempt is marked, one not in attempt is gone (R39). -/
def withdrawnQueue (q : List QFrame) : List QFrame :=
  (q.filter fun f => !ownPlace f.place || f.inAttempt).map fun f =>
    if ownPlace f.place then { f with withdrawn := true } else f

/-- Does a withdrawal of a place remove its frame at once? -/
def leavesAtOnce (p : Place) (q : List QFrame) : Bool := q.any fun f => f.place == p && !f.inAttempt

/-- The line controller after the withdrawal of own CLAIM, CHOICE and PASS: a transmitter WAITING for nothing is IDLE (R39, R41,
R95). -/
def WithdrawnFrames (m t : State) : Prop :=
  let idles := m.lcu.tx == .waiting && (withdrawnQueue m.lcu.queue).isEmpty
  t.lcu =
    { m.lcu with
      queue := withdrawnQueue m.lcu.queue
      tx := if idles then .idle else m.lcu.tx
      history := if idles then m.lcu.history.drop 1 ++ [some .idle] else m.lcu.history }

/-- The withdrawal at line controller and input capture unit: a withdrawn CLAIM's record returns to NONE, a withdrawn CHOICE's
pending key goes (R65, R71, R95). -/
def WithdrawnOwn (m t : State) : Prop :=
  WithdrawnFrames m t ∧
    t.icu =
      { m.icu with
        record :=
          { m.icu.record with
            ownClaim := if leavesAtOnce .claim m.lcu.queue then .none else m.icu.record.ownClaim
            claimStamp := if leavesAtOnce .claim m.lcu.queue then none else m.icu.record.claimStamp
            pendingKey := if leavesAtOnce .choice m.lcu.queue then 0 else m.icu.record.pendingKey } }

/-- The entry to ENDED at clock, round engine, line controller and input capture unit (R95). -/
def RoundEnds (m t : State) : Prop :=
  t.rng = { m.rng with phase := .ended, answerRunning := false } ∧ t.rck = { m.rck with running := false } ∧
    WithdrawnOwn m t

/-- The blocks that a round's instant may change, unchanged. -/
def RoundSame (m t : State) : Prop :=
  t.rng = m.rng ∧ t.clt = m.clt ∧ t.rck = m.rck ∧ t.lcu = m.lcu ∧ t.icu = m.icu

/-- What follows from m at the same instant: a choice round's CLOSING, a grant, settling out, or nothing. -/
def Follows (m t : State) : Prop :=
  if closingDue m then
    t.rng = { m.rng with phase := .closing } ∧ t.clt = m.clt ∧ t.rck = m.rck ∧ t.lcu = m.lcu ∧ t.icu = m.icu
  else if grantDue m then Granted m t ∧ t.rck = m.rck ∧ t.lcu = m.lcu ∧ t.icu = m.icu
  else if settleOutDue m then RoundEnds m t ∧ t.clt = m.clt
  else RoundSame m t

/-- The flags that what follows raises. -/
def followFlags (m : State) : BitVec 14 :=
  if closingDue m then 0
  else if grantDue m then Event.turnGranted.flag
  else if settleOutDue m then Event.roundEnded.flag
  else 0

/-- The blocks that a round's instant may change. -/
abbrev roundBlocks : List Block := [.lcu, .rck, .icu, .rng, .clt]

/-! ### Scores and ended turns (R109, R139, R140, R144, R150, R156) -/

/-- The delta of a turn (R143, R144). -/
def deltaOf (r : Rng) (turn : Nat) : TurnOutcome → Int
  | .right => reboundValue r.v r.p (turn - 1)
  | .wrong => -(r.w : Int)
  | .timeout => -((r.w / 2 : Nat) : Int)
  | .pass | .void => 0

/-- A record with a turn scored: total and count (R139, R140, R144). -/
def scoredRecord (r : Rng) (turn : Nat) (o : TurnOutcome) (x : TeamRec) : TeamRec :=
  { x with
    total := applyDelta r.noneg x.total (deltaOf r turn o)
    rights := if o = .right then min 255 (x.rights + 1) else x.rights
    wrongs := if o = .wrong ∨ o = .timeout then min 255 (x.wrongs + 1) else x.wrongs }

/-- Records with ranks worked out anew (R156). -/
def ranked (records : List TeamRec) : List TeamRec := records.map fun x => { x with rank := rankOf records x }

/-- A check total as a total (R150). -/
def checkOf (c : Half) : Int := max (-9999) (min 9999 c.toInt)

/-- The entry of a turn that has ended (R109). -/
def closedEntry (o : TurnOutcome) (e : Entry) : Entry :=
  { e with
    status := match o with
      | .right => .won
      | .void => .voided
      | .wrong | .timeout | .pass => .spent
    outcome := match o with
      | .right | .void => none
      | .wrong | .timeout | .pass => some o }

/-! ### Attempts and hand-overs (R36, R40, R41) -/

/-- A frame as its attempt begins (R40): the round number a first attempt reads is the current round's, for an OPEN the round it
opens; a VERDICT's check total and a page's totals are filled afresh. -/
def begun (s : State) (f : QFrame) : QFrame :=
  { f with
    inAttempt := true
    round := some (f.round.getD (match f.content with
      | .open_ number _ => number
      | _ => byteOf s.rng.round))
    content := fillContent s f.content }

/-- The queue with the attempt of its first frame begun. -/
def offered (s : State) : List QFrame → List QFrame
  | [] => []
  | f :: rest => begun s f :: rest

/-- A frame with count 0, round unset, not in attempt, no mark, no pending content (R36). -/
def fresh (c : Content) (h : Hander) : QFrame :=
  { place := c.place, content := c, round := none, attempts := 0, inAttempt := false, withdrawn := false, pending := none,
    hander := h }

/-- The line controller after QUEUED: the frame in its place; an IDLE or WAITING transmitter offers on an idle line, or where
another station's start mark is under way whose edge is no more than 1.0 µs old, and waits otherwise (R26, R36, R40, R41;
log 10). -/
def Queued (c : Content) (h : Hander) (s t : State) : Prop :=
  let q := insertFrame (fresh c h) s.lcu.queue
  let starts : Prop :=
    s.lif.decode = .hunt ∧ s.lif.idleSeen = true ∧ (s.lif.dominant = false ∨ s.lif.edgeNew = true)
  if s.lcu.tx ≠ .idle ∧ s.lcu.tx ≠ .waiting then t.lcu = { s.lcu with queue := q }
  else if starts then
    t.lcu = { s.lcu with queue := offered s q, tx := .contending, history := entered [.contending] s.lcu.history }
  else
    t.lcu =
      { s.lcu with
        queue := q, tx := .waiting
        history := if s.lcu.tx = .idle then entered [.waiting] s.lcu.history else s.lcu.history }

/-- The frame in attempt when nothing but its count is to be settled at the attempt's end: no withdrawal mark, no pending
content, no TALLY page. -/
def PlainAttempt (f : QFrame) (s : State) : Prop :=
  attempted s = some f ∧ f.withdrawn = false ∧ f.pending = none ∧ ∀ p, f.place ≠ .tally p

/-- The queue after a plain attempt has ended, with what its end adds to the count (R42). -/
def ended (add : Nat) (q : List QFrame) : List QFrame :=
  q.map fun f => if f.inAttempt then { f with inAttempt := false, attempts := f.attempts + add } else f

/-- Beside line interface and line controller the step leaves what u holds, these flags raised besides; the parts that no end of an
attempt concerns are unchanged. -/
def LeavesAs (u : State) (raised : BitVec 14) (s t : State) : Prop :=
  t.icu = u.icu ∧ t.cnf = u.cnf ∧ t.rng = u.rng ∧ t.suu = u.suu ∧ t.pnl.flash = u.pnl.flash ∧
    t.pnl.blink = s.pnl.blink ∧ DisplayFollows s t ∧ t.cmp.flags = u.cmp.flags ||| raised ∧ t.pending = s.pending ∧
    OutputsAgree t ∧ ∀ b, b ∉ [Block.suu, .lif, .lcu, .icu, .rng, .cnf, .pnl] → b.same s t

/-- The attempt in progress has ended so, with all that its end brings about at line controller and hander: what AttemptEnds
says of `endAttempt` (R37 to R43). A frame dropped here rests on logs 13, 15, 24 and 41. -/
def EndsAttempt (e : AttemptEnd) (s t : State) : Prop :=
  t.lcu = { (endAttempt e s).lcu with domFrame := t.lcu.domFrame } ∧ LeavesAs (endAttempt e s) 0 s t

/-- Is a place's frame queued? -/
def holds (p : Place) (s : State) : Bool := (frameAt p s.lcu.queue).isSome

/-- The queue of u emptied, every frame dropped and its hander told: CLAIM, CHOICE and PASS flash the FAULT lamp, a HOST
verdict's turn has its clock running again, dirty pages are marked no more, a JOINING station is JOINED (R11, R43, R49, R50,
R65, R71, R165, R166, R173, R184). The pending verdict kind is kept (log 41). The clock runs again in the phase TURN alone
(log 15), the 5 ms wait stops with JOINED (log 24). -/
def Emptied (u t : State) : Prop :=
  t.lcu.queue = [] ∧
    t.icu =
      { u.icu with
        record :=
          { u.icu.record with
            ownClaim := if holds .claim u then .dropped else u.icu.record.ownClaim
            claimStamp := if holds .claim u then none else u.icu.record.claimStamp
            pendingKey := if holds .choice u then 0 else u.icu.record.pendingKey } } ∧
    t.pnl.flash = (if holds .claim u || holds .choice u || holds .pass u then .running 2000000 else u.pnl.flash) ∧
    t.cnf =
      { u.cnf with
        verdictPending := if holds .verdict u then none else u.cnf.verdictPending
        dirty := u.cnf.dirty.filter fun n => !((List.finRange 4).any fun p => p.val == n && holds (.tally p) u) } ∧
    t.rng =
      { u.rng with
        answerRunning := u.rng.answerRunning ||
          (holds .verdict u && u.cnf.verdictKind == .host && u.cnf.verdictPending == some u.rng.turn &&
            u.rng.answering.isSome && u.rng.phase == .turn) } ∧
    t.suu = (if u.suu.startUp = .joining then { u.suu with startUp := .joined, joinWait := .off } else u.suu)

/-- HALTED entered with u's queue emptied, this log left, these flags raised (R48, R49, R53). Through `Emptied` it rests on
logs 15, 24 and 41. -/
def Halts (u : State) (log : List FaultRec) (raised : BitVec 14) (s t : State) : Prop :=
  t.lcu =
      { u.lcu with
        queue := [], tx := .halted, history := entered [.halted] s.lcu.history, log := log
        recoveryDeadline := .off, recoveryQuiet := .off, faultMemory := .off } ∧
    Emptied u t ∧ t.pnl.blink = s.pnl.blink ∧ DisplayFollows s t ∧
    t.cmp.flags =
      u.cmp.flags ||| raised ||| Event.halted.flag ||| raisedIf (!u.lcu.queue.isEmpty) .txDropped ∧
    t.pending = s.pending ∧ OutputsAgree t ∧
    ∀ b, b ∉ [Block.suu, .lif, .lcu, .icu, .rng, .cnf, .pnl] → b.same s t

/-! ### Duplicates (R13, R14, R50) -/

/-- What the owners of a frame do with it at a station that did not send it (R33). -/
def ownersDo (f : Frame) : State → State :=
  match f.body with
  | .close p => closeEffect f.round p
  | .verdict t m o c => verdictEffect false f.round t m o c
  | .pass t m => passEffect f.round t m
  | .claim x m => claimEffect f.desk f.round x m
  | .choice x k m => choiceEffect f.desk f.round x k m
  | .tally p a b c d => tallyEffect f.desk p [a, b, c, d]
  | .reveal k => revealEffect f.round k
  | .open_ b => openEffect f.round b
  | .roll i w => rollEffect i w
  | .present r m i g => presentEffect f.desk r m i g
  | .hello r m t => helloEffect f.desk r m t

/-- What a taken frame that this station did not send has left before the duplicate check: the line in HUNT, the sender heard,
and, if the frame passes its sender check, its owners' effect (R32, R33, R188; log 12). -/
def ownersLeft (f : Frame) (s : State) : State :=
  let t := markHeard f.desk.toNat f.round.toNat (frameEnd s)
  if senderAllowed f.desk.toNat f.body then ownersDo f t else t

/-- What a frame that fails its sender check leaves: the line in HUNT, the sender heard (R33, R188). -/
def onlyHeard (f : Frame) (s : State) : State :=
  { s with
    lif := hunted s.lif, lcu := lcuIdle s, prs := { s.prs with entries := heardEntries f s }
    cmp := { s.cmp with flags := s.cmp.flags ||| heardFlag f s } }

/-- The muted marker set on what u holds, with DUPLICATE: a transmitter not HALTED enters MUTED with its three timers stopped
and its queue emptied, TX_DROPPED raised for one that was not empty; one HALTED stays; a JOINING station is JOINED (R13, R14,
R43, R50). Through `Emptied` it rests on logs 15, 24 and 41. -/
def Mutes (u s t : State) : Prop :=
  let m : State := { u with suu := { u.suu with muted := true } }
  (u.lcu.tx ≠ .halted →
    t.lcu =
        { u.lcu with
          queue := [], tx := .muted, history := entered [.muted] u.lcu.history
          recoveryDeadline := .off, recoveryQuiet := .off, faultMemory := .off } ∧
      Emptied m t ∧
      t.cmp.flags = u.cmp.flags ||| Event.duplicate.flag ||| raisedIf (!u.lcu.queue.isEmpty) .txDropped) ∧
    (u.lcu.tx = .halted →
      t.lcu = u.lcu ∧ t.icu = u.icu ∧ t.cnf = u.cnf ∧ t.rng = u.rng ∧ t.pnl.flash = u.pnl.flash ∧
        t.suu = (if u.suu.startUp = .joining then { m.suu with startUp := .joined, joinWait := .off } else m.suu) ∧
        t.cmp.flags = u.cmp.flags ||| Event.duplicate.flag) ∧
    t.pnl.blink = s.pnl.blink ∧ DisplayFollows s t ∧ t.pending = s.pending ∧ OutputsAgree t ∧
    ∀ b ∈ [Block.sto, .lif, .rck, .clt, .cht, .scu, .prs, .cmp, .free], b.same u t

/-! ### Requests for pages (R170) -/

/-- A request for a page, met in s: 3 NOT_HANDED under a shut transmitter, 0 QUEUED in an empty place, 1 WAITING behind a page that
waits, 2 DIRTY behind one in attempt, whose mark is set; what it leaves of line controller and console function (R36, R38,
R170). -/
def AsksPage (p : Fin 4) (outcome : Byte) (s : State) (lcu : Lcu) (cnf : Cnf) : Prop :=
  outcome =
      (if s.lcu.tx = .halted ∨ s.lcu.tx = .muted then 3
       else match frameAt (.tally p) s.lcu.queue with
        | none => 0
        | some f => if f.inAttempt then 2 else 1) ∧
    (outcome = 0 → Queued (.tally p none) .cnf s { s with lcu := lcu }) ∧ (outcome ≠ 0 → lcu = s.lcu) ∧
    cnf = if outcome = 2 then { s.cnf with dirty := insertNat p.val s.cnf.dirty } else s.cnf

/-- The line controller once the four pages are asked for, no frame being in attempt and the line not idle: each page not yet
queued is, unless the transmitter is shut (R36, R41, R170, R174). -/
def lcuPages (x : Lcu) : Lcu :=
  let ask (q : List QFrame) (p : Fin 4) : List QFrame :=
    if (frameAt (.tally p) q).isSome then q else insertFrame (fresh (.tally p none) .cnf) q
  if x.tx = .halted ∨ x.tx = .muted then x
  else
    { x with
      queue := (List.finRange 4).foldl ask x.queue
      tx := if x.tx = .idle then .waiting else x.tx
      history := if x.tx = .idle then entered [.waiting] x.history else x.history }

/-! ### The panel's tables (R177, R179 to R183) -/

/-- The lines of a table, each its condition and its desk phase: the first that holds decides. -/
def firstLine (lines : List (Bool × DeskPhase)) : Option DeskPhase := (lines.find? Prod.fst).map Prod.snd

/-- Is the own team's claim entry in this status? -/
def ownIs (status : ClaimStatus) (s : State) : Bool :=
  s.clt.entries.any fun e => e.team == s.suu.identity.team && e.status == status

/-- Jumped, and the clock has not reached the jump-lock end (R179). -/
def lockedNow (s : State) : Bool := s.icu.record.jumped && decide (s.rck.count < s.icu.record.jumpLockEnd)

/-- The lines of R180, from LIVE on in a BUZZ round. -/
def buzzLines (s : State) : List (Bool × DeskPhase) :=
  let ended := s.rng.phase == .ended
  [(ended && ownIs .won s, .won), (ended && (ownIs .spent s || ownIs .voided s), .spent), (ended, .closed),
   (ownIs .answering s && s.rng.phase == .turn, .answering), (ownIs .answering s && s.rng.phase == .held, .timeUp),
   (ownIs .spent s || ownIs .voided s, .spent), (ownIs .won s, .won),
   (ownIs .waiting s, .queued ((queuePosition s.suu.identity.team s.clt.entries).getD 0)),
   (s.icu.record.ownClaim == .pending, .pendingClaim), (lockedNow s, .jumped),
   (s.icu.record.ownClaim == .taken && s.clt.entries.all fun e => e.team != s.suu.identity.team, .closed),
   (s.rng.closed, .closed), (true, .armed)]

/-- The shown key (R181). -/
def keyShown (s : State) : Nat :=
  if s.icu.record.pendingKey ≠ 0 then s.icu.record.pendingKey else (s.cht.team s.suu.identity.team).key

/-- The lines of R181, from LIVE on in a CHOICE round. -/
def choiceLines (s : State) : List (Bool × DeskPhase) :=
  let ended := s.rng.phase == .ended
  let live := s.rng.phase == .live
  [(ended && [some 1, some 2, some 3, some 4].contains s.rng.correctKey, .revealed), (ended, .closed),
   (live && lockedNow s, .jumped), (keyShown s != 0, .chosen (keyShown s)), (live, .choosing), (true, .closed)]

/-- A number right-aligned, leading zeros blank, sign and point as given (R177). -/
def ShowsNumber (n : Nat) (sign point : Bool) (c : Content4) : Prop :=
  c =
    { pos1 := if n < 1000 then .blank else .digit (n / 1000 % 10), pos2 := if n < 100 then .blank else .digit (n / 100 % 10)
      pos3 := if n < 10 then .blank else .digit (n / 10 % 10), pos4 := .digit (n % 10), sign := sign, point := point }

/-- All four positions, sign and point dark. -/
def dark : Content4 := ⟨.blank, .blank, .blank, .blank, false, false⟩

/-- The idle figure: the own team's total or rank, blanked in the dark half of SLOW while it is unconfirmed and the blink option
is on (R177, R182, R183). -/
def ShowsIdleFigure (s : State) (c : Content4) : Prop :=
  let x := s.scu.team s.suu.identity.team
  if s.suu.identity.blink = true ∧ x.unconfirmed = true ∧ 4 ≤ s.pnl.blink then c = dark
  else match s.suu.identity.idleDisplay with
    | .total => ShowsNumber x.total.natAbs (decide (x.total < 0)) false c
    | .rank => if x.rank = 0 then c = ⟨.blank, .blank, .dash, .dash, false, false⟩ else ShowsNumber x.rank false false c

/-- The display of a desk phase (R177, R182). -/
def ShowsDeskPhase (s : State) (c : Content4) : DeskPhase → Prop
  | .jumped => ∃ n, (n - 1) * 1000 < s.icu.record.jumpLockEnd - s.rck.count ∧
      s.icu.record.jumpLockEnd - s.rck.count ≤ n * 1000 ∧
      c =
        { pos1 := if n < 1000 then .blank else .digit (n / 1000 % 10), pos2 := .digit (n / 100 % 10)
          pos3 := .digit (n / 10 % 10), pos4 := .digit (n % 10), sign := false, point := true }
  | .queued n => ShowsNumber n false false c
  | .answering => ∃ n, s.rng.answerClock ≤ n * 100 ∧ n * 100 < s.rng.answerClock + 100 ∧ ShowsNumber n false false c
  | .timeUp => ShowsNumber 0 false false c
  | .chosen k => ∀ letter, [Glyph.a, .b, .c, .d][k - 1]? = some letter → 1 ≤ k →
      c = ⟨.blank, .blank, .blank, letter, false, false⟩
  | .idle | .reading | .armed | .pendingClaim | .spent | .won | .choosing | .closed | .revealed => ShowsIdleFigure s c

/-- The lamps TURN, WAIT and LOCK of a desk phase (R182). -/
def lampLine (s : State) : DeskPhase → PhaseLamps
  | .idle | .closed => ⟨.off, .off, .off⟩
  | .reading => ⟨.off, .slow, .off⟩
  | .jumped => ⟨.off, .off, .fast⟩
  | .armed | .queued _ | .choosing | .chosen _ => ⟨.off, .on, .off⟩
  | .pendingClaim => ⟨.off, .fast, .off⟩
  | .answering => ⟨.on, .off, .off⟩
  | .timeUp => ⟨.fast, .off, .off⟩
  | .spent => ⟨.off, .off, .on⟩
  | .won => ⟨.slow, .off, .off⟩
  | .revealed =>
    let k := (s.cht.team s.suu.identity.team).key
    let right := s.rng.correctKey == some k
    ⟨if right then .on else .off, .off, if !right && decide (1 ≤ k) && decide (k ≤ 4) then .on else .off⟩

/-! ### Replies (R195, R204) -/

/-- A command answered: the transfer is over, the count has risen, the held reply carries length, code, reply code, the raised
count and the body; the mask stands (R195; log 14). -/
def Replied (code : Byte) (rc : ReplyCode) (body : List Byte) (s t : State) : Prop :=
  t.cmp.transfer = .waitSelect ∧ t.cmp.csN = true ∧ t.cmp.sdo = none ∧ t.cmp.count = s.cmp.count + 1 ∧
    t.cmp.mask = s.cmp.mask ∧
    t.cmp.heldReply = bytes2 (BitVec.ofNat 16 (5 + body.length)) ++ [code, rc.code, s.cmp.count + 1] ++ body

/-- A command answered with nothing else done: the port, the model's counter of free values. -/
def OnlyReplied (code : Byte) (rc : ReplyCode) (body : List Byte) (s t : State) : Prop :=
  Replied code rc body s t ∧ StepFrame [.cmp, .free] 0 s t

end Sys2Proof.Safety
end

