-- ==== Sys2Proof/Certificates/Slice0/Obligations.lean ====
section
/-! DEFINITION. The statements for the provers. Each docstring names the rules it comes from. -/

open Sys2Proof Sys2Proof.Machine Sys2Proof.Safety

/-! ### The machine -/

/-- A step runs the command at the front of the queue on the state with the queue's rest. The queue is the model's own (log
5), and so is what an empty one does: the block idles, and a dominant edge on the line grows too old to be joined (log 10).
-/
def Obligations.StepRunsFrontCommand : Prop :=
  (∀ (c : Instr) (rest : List Instr) (s : State), s.pending = c :: rest → step s = exec c (s.withPending rest)) ∧
  ∀ s : State, s.pending = [] → step s = .next { s with lif := { s.lif with edgeNew := false } }

/-- Every command answers a next state and leaves the waiting commands alone: the spec names no stop. That a command whose
event cannot occur leaves the state as it is, is the model's choice (log 6). -/
def Obligations.EveryCommandAnswersNext : Prop :=
  ∀ (c : Instr) (s : State), ∃ t, exec c s = .next t ∧ t.pending = s.pending

/-- The spec's reset values, block by block (R2, R5, R16, R22, R54, R72, R73, R98, R121, R138, R175, R187, R196). -/
def Obligations.ResetValues : Prop :=
  let s := State.reset
  s.suu.startUp = .loading ∧ s.suu.muted = false ∧
    s.suu.identity =
      { role := .none, desk := 0, team := 0, tag := 0, filterMs := 1, passHold := 5, idleDisplay := .total, blink := false,
        reason := .none } ∧
    s.sto.busy = true ∧ s.sto.write = none ∧
    s.lif.decode = .hunt ∧ s.lif.idleSeen = false ∧ s.lif.run = false ∧
    s.lcu.tx = .idle ∧ s.lcu.queue = [] ∧ s.lcu.log = [] ∧ s.lcu.history = [none, none, none, some .idle] ∧
    s.lcu.recoveryDeadline = .off ∧ s.lcu.recoveryQuiet = .off ∧ s.lcu.faultMemory = .off ∧
    s.rck.count = 0 ∧ s.rck.running = false ∧
    (∀ d, (s.icu.input d).filter = .released ∧ (s.icu.input d).timer = .off) ∧ s.icu.hold = .off ∧
    s.icu.record =
      { ownClaim := .none, claimStamp := none, lastKey := 0, pendingKey := 0, jumpLockEnd := 0, jumped := false,
        passTurn := none } ∧
    s.rng.phase = .unsynced ∧ s.rng.round = 0 ∧ s.rng.turn = 0 ∧ s.rng.answering = none ∧ s.rng.closed = false ∧
    s.rng.correctKey = none ∧ s.rng.grain = 1 ∧ s.rng.settleTicks = 500 ∧ s.rng.answerTime = 100 ∧
    s.rng.windowTicks = 10000 ∧ s.rng.closePoint = 0 ∧
    s.clt.entries = [] ∧
    s.cht.records = List.replicate 16 { key := 0, stamp := 0, desk := 0, changes := 0 } ∧
    s.scu.records =
      List.replicate 16 { total := 0, rights := 0, wrongs := 0, unconfirmed := true, seated := false, rank := 0 } ∧
    s.cnf.lastRound = 0 ∧ s.cnf.verdictPending = none ∧ s.cnf.dirty = [] ∧ s.cnf.rollState = .idle ∧
    s.cnf.lastRollId = 0 ∧ s.cnf.report.valid = false ∧
    (∀ e ∈ s.prs.entries, e.heard = false) ∧ s.prs.seated = [] ∧
    s.pnl.content = ⟨.dash, .dash, .dash, .dash, false, false⟩ ∧ s.pnl.lampOut = ⟨false, false, false, false⟩ ∧
    s.cmp.flags = 0 ∧ s.cmp.mask = 0 ∧ s.cmp.count = 0 ∧ s.cmp.irqN = true ∧ s.cmp.sdo = none ∧
    s.cmp.heldReply = [0x00, 0x06, 0xFF, 0x00, 0x00, 0x01] ∧ s.ltx = none

/-- The three resets, in every state, LTX released; RESTART when a transfer ends with it (R15, R16, R22, R54, R72, R73, R98,
R121, R138, R175, R176, R187, R196). The model's own: the levels at the pins are kept (log 4), the straps' levels are an
operand (log 26), the mark of a line fault already reported goes (log 28), SDO is released with CS_N low too (log 37). -/
def Obligations.ResetsPlaceEveryBlock : Prop :=
  ∀ (role1 role0 : Bool) (s : State),
    (∃ t, exec (.powerOnReset role1 role0) s = .next t ∧ AfterReset .powerOn role1 role0 s.cmp.csN s t) ∧
    (∃ t, exec (.resetN role1 role0) s = .next t ∧ AfterReset .resetN role1 role0 s.cmp.csN s t) ∧
    (s.cmp.transfer = .shifting →
      ∃ t, exec (.restart role1 role0) s = .next t ∧ AfterReset .restart role1 role0 true s t)

/-! ### Invariants that every step keeps -/

/-- The claim list stays as R99 has it and agrees with the round engine (R84, R97, R99, R100, R109, R111, R112). -/
def Obligations.ClaimsStaySound : Prop := ∀ s t : State, ClaimsSound s → step s = .next t → ClaimsSound t

/-- The transmit queue stays sound and agrees with the transmitter (R14, R35 to R43, R49, R50). -/
def Obligations.QueueStaysSound : Prop := ∀ s t : State, QueueSound s → step s = .next t → QueueSound t

/-- The bounds of identity record, clock, round context and fault log hold after every step (R2, R4, R51, R52, R55, R73, R76,
R91). -/
def Obligations.BoundsStaySound : Prop := ∀ s t : State, BoundsSound s → step s = .next t → BoundsSound t

/-- Lamps, display, IRQ_N and LTX follow the state at every step (R16, R176 to R186, R202). The glyphs of figures, the phase
of the blink base and LTX held as the length of its pulse are the model's (logs 17, 18, 39). -/
def Obligations.OutputsFollowState : Prop := ∀ s t : State, OutputsAgree s → step s = .next t → OutputsAgree t

/-- The tables keep their lengths, a desk not heard keeps its reset entry, the seated set is that of the entries; totals and
counts stay within their bounds, the seated fields are the set's and every rank is R156's (R121, R137, R139, R140, R155,
R156, R173, R187, R190, R193). -/
def Obligations.ScoresAndTablesStaySound : Prop :=
  (∀ s t : State, TablesSound s → step s = .next t → TablesSound t) ∧
  (∀ s t : State, TablesSound s → ScoresSound s → step s = .next t → ScoresSound t)

/-- The six invariants hold at reset. -/
def Obligations.SoundAtReset : Prop :=
  ClaimsSound State.reset ∧ ScoresSound State.reset ∧ QueueSound State.reset ∧ BoundsSound State.reset ∧
    OutputsAgree State.reset ∧ TablesSound State.reset

/-! ### Encodings -/

/-- A frame sent on a clean line is received as that frame: class, desk, round number, length, payload and CRC, every field
at every value (R18, R23, R24, R25, R203). -/
def Obligations.FrameRoundTrip : Prop := ∀ f : Frame, receive (cleanCells (wireBits f)) = .clean f

/-- A command's record at the port spells that command, the pins that STORE_WRITE and RESTART read being those of the
transfer; bytes after a command's arguments are ignored; no byte spells no command; SDI's bits are grouped by eight, the
first the most significant, a partial byte is discarded (R195, R204). -/
def Obligations.CommandRoundTrip : Prop :=
  (∀ (c : Instr) (bytes : List Byte) (setup role1 role0 : Bool),
    wellFormed c = true → encodeCommand c = some bytes →
    (∀ row value pin, c = .storeWrite row value pin → pin = setup) →
    (∀ a b, c = .restart a b → a = role1 ∧ b = role0) →
    decodeTransfer setup role1 role0 bytes = c ∧
      ((∀ code args, c ≠ .unknownCommand code args) →
        ∀ extra, decodeTransfer setup role1 role0 (bytes ++ extra) = c)) ∧
  (∀ setup role1 role0 : Bool, decodeTransfer setup role1 role0 [] = .transferEndNoCommand) ∧
  ∀ (setup role1 role0 : Bool) (bytes : List Byte) (part : List Bool), part.length < 8 →
    decodeShifted setup role1 role0 (bytes.flatMap bitsOf ++ part) = decodeTransfer setup role1 role0 bytes

/-! ### Orders and figures -/

/-- The key order: stamp, level, team; total over distinct teams, transitive, blind to every other field; a placed entry
stands at its key position; within a team the stamp alone decides (R100). -/
def Obligations.KeyOrder : Prop :=
  (∀ a b : Entry, keyBefore a b = true ↔
    a.stamp < b.stamp ∨ (a.stamp = b.stamp ∧ b.level < a.level) ∨
      (a.stamp = b.stamp ∧ a.level = b.level ∧ a.team < b.team)) ∧
  (∀ a b : Entry, a.team ≠ b.team → (keyBefore a b = true ↔ keyBefore b a = false)) ∧
  (∀ a b c : Entry, keyBefore a b = true → keyBefore b c = true → keyBefore a c = true) ∧
  (∀ (a b : Entry) (desk : Nat) (status : ClaimStatus) (outcome : Option TurnOutcome) (late adopted : Bool),
    keyBefore { a with desk := desk, status := status, outcome := outcome, late := late, adopted := adopted } b =
      keyBefore a b) ∧
  (∀ a b : Entry, a.team = b.team → a.level = b.level → (keyBefore a b = true ↔ a.stamp < b.stamp)) ∧
  ∀ (e : Entry) (es : List Entry),
    (waitingPart es).Pairwise (fun a b => keyBefore a b = true) → (∀ x ∈ waitingPart es, x.team ≠ e.team) →
    ∃ before after placed,
      waitingPart es = before ++ after ∧ waitingPart (placeWaiting e es) = before ++ placed :: after ∧
      grantedPart (placeWaiting e es) = grantedPart es ∧
      placed = { e with status := .waiting, late := (grantedPart es).any (keyBefore e) } ∧
      (∀ x ∈ before, keyBefore x e = true) ∧ ∀ x ∈ after, keyBefore e x = true

/-- The rebound value: the chain of whole-number steps, its raise to 1, its zero for P = 0, its bounds (R143). -/
def Obligations.ReboundValue : Prop :=
  ∀ (v p : Nat) (chain : Nat → Nat), chain 0 = v → (∀ j, chain (j + 1) = chain j * p / 100) → p ≤ 100 →
    ∀ k ≤ 15,
      (0 < p → 0 < v → chain k = 0 → reboundValue v p k = 1) ∧
      (¬(0 < p ∧ 0 < v ∧ chain k = 0) → reboundValue v p k = chain k) ∧
      (p = 0 → 1 ≤ k → reboundValue v p k = 0) ∧
      (∀ j ≤ k, chain j = 0 → chain k = 0) ∧
      chain (k + 1) ≤ chain k ∧ reboundValue v p k ≤ v

/-- The speed bonus: elapsed time from the arm, 0 at least and the window at most, the rest of the window's share of B
rounded down; its bounds; a CLOSE leaves the window alone; an accepted stamp never meets the cap (R147). -/
def Obligations.SpeedBonus : Prop :=
  (∀ (r : Rng) (stamp : Nat) (e : Int), 0 < r.windowTicks →
    ((stamp * r.grain : Int) - r.armTicks < 0 → e = 0) →
    (0 ≤ (stamp * r.grain : Int) - r.armTicks → (stamp * r.grain : Int) - r.armTicks ≤ r.windowTicks →
      e = stamp * r.grain - r.armTicks) →
    ((r.windowTicks : Int) < stamp * r.grain - r.armTicks → e = r.windowTicks) →
    (speedBonus r stamp : Int) = r.b * (r.windowTicks - e) / r.windowTicks ∧
      speedBonus r stamp ≤ r.b ∧
      (stamp * r.grain ≤ r.armTicks → speedBonus r stamp = r.b) ∧
      (stampInBounds r stamp = true → 0 < r.grain → r.closePoint ≤ r.armTicks + r.windowTicks →
        e ≤ r.windowTicks - 1)) ∧
  (∀ (number : Byte) (block : OpenBlock),
    10000 ≤ (loadRound number block).windowTicks ∧ (loadRound number block).windowTicks ≤ 16770000 ∧
      (loadRound number block).b * (loadRound number block).windowTicks < 2 ^ 34) ∧
  ∀ (round : Byte) (point : Triple) (s : State), (closeEffect round point s).rng.windowTicks = s.rng.windowTicks

/-- A scoring delta: the sum, NONEG on a delta that takes points away, saturation. Ranks: one more than the seated teams
strictly ahead, 0 unseated; equals share, the next skips; the unseated play no part (R139, R156). -/
def Obligations.DeltasAndRanks : Prop :=
  (∀ (noneg : Bool) (total delta : Int),
     let kept := if noneg = true ∧ delta < 0 ∧ total + delta < 0 then 0 else total + delta
     (kept < -9999 → applyDelta noneg total delta = -9999) ∧ (9999 < kept → applyDelta noneg total delta = 9999) ∧
       (-9999 ≤ kept → kept ≤ 9999 → applyDelta noneg total delta = kept)) ∧
  (∀ (records : List TeamRec) (x : TeamRec), x ∈ records →
     (x.seated = false → rankOf records x = 0) ∧
     (x.seated = true →
       rankOf records x = 1 + ((records.filter TeamRec.seated).filter fun y => decide (x.total < y.total)).length ∧
       1 ≤ rankOf records x ∧ rankOf records x ≤ (records.filter TeamRec.seated).length ∧
       ((∀ y ∈ records, y.seated = true → y.total ≤ x.total) → rankOf records x = 1)) ∧
     rankOf (records.filter TeamRec.seated) x = rankOf records x ∧
     ∀ y ∈ records, x.seated = true → y.seated = true →
       (x.total = y.total → rankOf records x = rankOf records y) ∧
       (y.total < x.total →
         rankOf records x + records.countP (fun z => z.seated && z.total == x.total) ≤ rankOf records y))

/-- Queue positions count the WAITING and ANSWERING entries in list order, without gaps (R117). -/
def Obligations.QueuePositions : Prop :=
  let open_ (e : Entry) : Bool := e.status == .waiting || e.status == .answering
  ∀ es : List Entry, ListOrdered es →
    (∀ before e after, es = before ++ e :: after →
      queuePosition e.team es = if open_ e then some (1 + before.countP open_) else none) ∧
    (∀ t, (∀ e ∈ es, e.team ≠ t) → queuePosition t es = none) ∧
    (∀ e ∈ es, e.status = .answering → queuePosition e.team es = some 1) ∧
    (∀ h rest, waitingPart es = h :: rest → queuePosition h.team es = some (if anyAnswering es then 2 else 1)) ∧
    (es.filter open_).map (fun e => queuePosition e.team es) =
      (List.range (es.countP open_)).map (fun i => some (i + 1))

/-- The check total that an attempt of a VERDICT carries is the total that the verdict leaves at the console, and a TEAM or
WALL station that takes the verdict in full ends with that total (R145, R150, R151, R152, R157, R168). -/
def Obligations.LineFollowsConsole : Prop :=
  ∀ (console station : State) (turn team : Nat) (o : TurnOutcome),
    ScoresSound console → ScoresSound station → console.suu.identity.role = .console →
    station.suu.identity.role ≠ .console → 1 ≤ turn → turn ≤ 16 → 1 ≤ team → team ≤ 16 →
    ∃ c : Half,
      fillContent console (.verdict (byteOf turn) (byteOf team) o none) =
        .verdict (byteOf turn) (byteOf team) o (some c) ∧
      ((fullVerdict turn team o c.toInt console).scu.team team).total = c.toInt ∧
      ((fullVerdict turn team o c.toInt station).scu.team team).total = c.toInt ∧
      ((fullVerdict turn team o c.toInt station).scu.team team).unconfirmed = false

/-- The conditions of a grant, of settling out and of a choice round's CLOSING; SETTLE_DEADLINE grants the turn to the head
of the waiting part with TURN_GRANTED; SETTLE_OUT ends the round with ROUND_ENDED (R84, R92, R93, R95, R101, R106, R107). -/
def Obligations.GrantsAndSettlingOut : Prop :=
  (∀ s : State,
     (grantDue s = true ↔
       s.rng.phase = .live ∧ s.rng.format = .buzz ∧ (∀ e ∈ s.clt.entries, e.status ≠ .answering) ∧
         ∃ e rest, waitingPart s.clt.entries = e :: rest ∧
           (s.rng.saturated = true ∨ e.stamp * s.rng.grain + s.rng.settleTicks ≤ s.rck.count)) ∧
     (settleOutDue s = true ↔
       s.rng.phase = .live ∧ s.rng.format = .buzz ∧ s.rng.closed = true ∧
         (∀ e ∈ s.clt.entries, e.status ≠ .waiting ∧ e.status ≠ .answering) ∧
         (s.rng.saturated = true ∨ s.rng.closePoint + s.rng.settleTicks ≤ s.rck.count)) ∧
     (closingDue s = true ↔ s.rng.phase = .live ∧ s.rng.format = .choice ∧ s.rng.closed = true)) ∧
  (∀ s : State,
     (∀ (e : Entry) (rest : List Entry), s.rng.phase = .live → s.rng.format = .buzz →
       (∀ x ∈ s.clt.entries, x.status ≠ .answering) → waitingPart s.clt.entries = e :: rest →
       s.rng.saturated = true ∨ e.stamp * s.rng.grain + s.rng.settleTicks ≤ s.rck.count →
       ∃ t, exec .settleDeadline s = .next t ∧ Granted s t ∧ StepFrame [.rng, .clt] Event.turnGranted.flag s t) ∧
     (QueueSound s → s.rng.phase = .live → s.rng.format = .buzz → s.rng.closed = true →
       (∀ x ∈ s.clt.entries, x.status ≠ .waiting ∧ x.status ≠ .answering) →
       s.rng.saturated = true ∨ s.rng.closePoint + s.rng.settleTicks ≤ s.rck.count →
       ∃ t, exec .settleOut s = .next t ∧ RoundEnds s t ∧
         StepFrame [.lcu, .rck, .icu, .rng] Event.roundEnded.flag s t))

/-! ### Rules over all commands -/

/-- UNSYNCED and ENDED are left by the taking of an OPEN or a reset alone; the round clock moves by its own tick alone,
upward by one, and starts at the taking of an OPEN alone (R55, R56, R57, R78, R95). -/
def Obligations.RoundBegunByOpen : Prop :=
  (∀ (c : Instr) (s t : State), isReset c = false → isOpening c = false → exec c s = .next t →
     (s.rng.phase = .ended → t.rng.phase = .ended) ∧ (s.rng.phase = .unsynced → t.rng.phase = .unsynced)) ∧
  (∀ (c : Instr) (s t : State), isReset c = false → isOpening c = false → exec c s = .next t →
     (c ≠ .roundClockTick → t.rck.count = s.rck.count) ∧ s.rck.count ≤ t.rck.count ∧ t.rck.count ≤ s.rck.count + 1 ∧
       (t.rck.running = true → s.rck.running = true))

/-- HALTED, MUTED and the muted marker are left by a reset alone; totals and counts change by a VERDICT, REVEAL or TALLY
taken, SET_TOTAL, ADJUST or a reset alone; a store row at the end of a store write alone, resets included; the identity
record at a reset and at the end of LOADING alone; a set flag stands until CLEAR_EVENTS or a reset (R2, R9, R14, R15, R49,
R50, R142, R200, R201). -/
def Obligations.OnlyTheirCommandsChange : Prop :=
  (∀ (c : Instr) (s t : State), isReset c = false → exec c s = .next t →
     (s.lcu.tx = .halted → t.lcu.tx = .halted) ∧ (s.lcu.tx = .muted → t.lcu.tx = .muted) ∧
       (s.suu.muted = true → t.suu.muted = true)) ∧
  (∀ (c : Instr) (s t : State), isReset c = false → isScoring c = false → exec c s = .next t →
     t.scu.records.map TeamRec.figures = s.scu.records.map TeamRec.figures) ∧
  (∀ (c : Instr) (s t : State), exec c s = .next t →
     (c ≠ .storeWriteEnd →
       t.sto.row0 = s.sto.row0 ∧ t.sto.row1 = s.sto.row1 ∧ t.sto.row2 = s.sto.row2 ∧ t.sto.row3 = s.sto.row3) ∧
     (isReset c = false → c ≠ .loadingReadEnd → t.suu.identity = s.suu.identity)) ∧
  (∀ (c : Instr) (s t : State), isReset c = false → (∀ named, c ≠ .clearEvents named) → exec c s = .next t →
     s.cmp.flags &&& t.cmp.flags = s.cmp.flags)

/-! ### Start-up and store (01) -/

/-- LOADING_READ_END: the identity from straps and rows, the checks in their order, JOINING or CONFIG_FAULT, the filters
synchronised, the console's scoreboard confirmed, the store's flag cleared; nothing else. JOINING_IDLE_WAIT_END: a shut
transmitter's station is JOINED at once, any other hands its HELLO (R1, R2, R3, R4, R5, R10, R36, R40, R41, R61, R138, R203).
How the age of a start mark's edge is known at a hand-over, and that one exactly 1.0 µs old is joined, is the model's choice
(log 10). -/
def Obligations.StartUpRows : Prop :=
  (∀ s : State, s.suu.startUp = .loading →
     ∃ (t : State) (id : Identity), exec .loadingReadEnd s = .next t ∧
       (s.suu.strap1 = false → s.suu.strap0 = false → id.role = .team) ∧
       (s.suu.strap1 = false → s.suu.strap0 = true → id.role = .console) ∧
       (s.suu.strap1 = true → s.suu.strap0 = false → id.role = .wall) ∧
       (s.suu.strap1 = true → s.suu.strap0 = true → id.role = .none) ∧
       id.desk = s.sto.row0.toNat / 1024 ∧
       id.team = (if id.role = .team then s.sto.row0.toNat % 32 else 0) ∧
       id.tag = s.sto.row3 ∧ id.filterMs = 2 ^ (s.sto.row1.toNat % 4) ∧
       id.passHold = max 5 (min 25 (s.sto.row1.toNat / 256 % 32)) ∧
       id.idleDisplay = (if s.sto.row2.getLsbD 0 then .rank else .total) ∧ id.blink = s.sto.row2.getLsbD 1 ∧
       id.reason =
         (if id.role = .none then .badRole
          else if id.role = .team ∧ ¬(1 ≤ id.desk ∧ id.desk ≤ 48) ∨ id.role = .console ∧ id.desk ≠ 0 ∨
             id.role = .wall ∧ ¬(56 ≤ id.desk ∧ id.desk ≤ 63) then .badDesk
          else if id.role = .team ∧ ¬(1 ≤ id.team ∧ id.team ≤ 16) then .badTeam
          else .none) ∧
       t.sto = { s.sto with busy := false } ∧
       (id.reason ≠ .none →
         t.suu = { s.suu with startUp := .configFault, identity := id } ∧ StepFrame [.suu, .sto] 0 s t) ∧
       (id.reason = .none →
         t.suu =
           { s.suu with
             startUp := .joining, identity := id, joinWait := if s.lif.dominant then .off else .running 5000 } ∧
         (∀ d, t.icu.input d =
           { low := (s.icu.input d).low, filter := if (s.icu.input d).low then .pressed none else .released,
             timer := .off }) ∧
         t.icu.hold = s.icu.hold ∧ t.icu.record = s.icu.record ∧
         t.scu.records =
           (if id.role = .console then s.scu.records.map fun x => { x with unconfirmed := false } else s.scu.records) ∧
         StepFrame [.suu, .sto, .icu, .scu] 0 s t)) ∧
  ∀ s : State, s.suu.startUp = .joining → s.suu.joinWait.on = true →
    (s.lcu.tx = .halted ∨ s.lcu.tx = .muted →
      ∃ t, exec .joiningIdleWaitEnd s = .next t ∧ t.suu = { s.suu with startUp := .joined, joinWait := .off } ∧
        StepFrame [.suu] 0 s t) ∧
    (s.lcu.tx ≠ .halted → s.lcu.tx ≠ .muted → s.suu.identity.role ≠ .none → frameAt .hello s.lcu.queue = none →
      ∃ t, exec .joiningIdleWaitEnd s = .next t ∧ t.suu = { s.suu with joinWait := .off } ∧
        Queued (.hello (roleCode s.suu.identity.role) (byteOf s.suu.identity.team) s.suu.identity.tag) .suu s t ∧
        StepFrame [.suu, .lcu] 0 s t)

/-- The store: STORE_READ and STORE_WRITE with their checks in order, the timed write, its end with STORE_DONE (R7, R8, R9).
The count byte of a reply is the model's reading (log 14). -/
def Obligations.StoreAccess : Prop :=
  ∀ s : State,
    let rows := [s.sto.row0, s.sto.row1, s.sto.row2, s.sto.row3]
    (s.cmp.transfer = .shifting →
      (∀ row : Byte,
        (3 < row.toNat → ∃ t, exec (.storeRead row) s = .next t ∧ OnlyReplied 0x0C .unknown [] s t) ∧
        (row.toNat ≤ 3 → s.sto.busy = true → ∃ t, exec (.storeRead row) s = .next t ∧ OnlyReplied 0x0C .busy [] s t) ∧
        (∀ v, rows[row.toNat]? = some v → s.sto.busy = false →
          ∃ t, exec (.storeRead row) s = .next t ∧ OnlyReplied 0x0C .ok (row :: bytes2 v) s t)) ∧
      ∀ (row : Byte) (v : Half) (setup : Bool),
        (3 < row.toNat → ∃ t, exec (.storeWrite row v setup) s = .next t ∧ OnlyReplied 0x0D .unknown [] s t) ∧
        (row.toNat ≤ 3 → s.sto.busy = true →
          ∃ t, exec (.storeWrite row v setup) s = .next t ∧ OnlyReplied 0x0D .busy [] s t) ∧
        (row.toNat ≤ 3 → s.sto.busy = false → setup = false →
          ∃ t, exec (.storeWrite row v setup) s = .next t ∧ OnlyReplied 0x0D .protected_ [] s t) ∧
        (row.toNat ≤ 3 → s.sto.busy = false → setup = true →
          ∃ t, exec (.storeWrite row v setup) s = .next t ∧ Replied 0x0D .ok [] s t ∧
            t.sto = { s.sto with busy := true, write := some (row.toNat, v), timer := .running 8000 } ∧
            StepFrame [.cmp, .free, .sto] 0 s t)) ∧
    ∀ (row : Nat) (v : Half), s.sto.timer.on = true → s.sto.write = some (row, v) → row ≤ 3 →
      ∃ t, exec .storeWriteEnd s = .next t ∧
        [t.sto.row0, t.sto.row1, t.sto.row2, t.sto.row3] = rows.set row v ∧ t.sto.busy = false ∧ t.sto.write = none ∧
        t.sto.timer = .off ∧ StepFrame [.sto] Event.storeDone.flag s t

/-! ### The line and the station's own attempts (02, 03) -/

/-- What the station drives on LTX, for how many nanoseconds from the edge or boundary that began the present pulse: in
LOADING, CONFIG_FAULT, RECOVERING, HALTED and MUTED nothing; its own frame's start mark of 16.0 µs into the first cell, then
2.0 µs for a 1 and 6.0 µs for a 0; in its slots a 1 in each, a 0 in the objection slot unless the ack slot read 0, a missing
ack slot too; as a receiver the ack slot if it read every cell cleanly, the objection slot if it holds a decode error or read
the ack slot as a width error, every edge in an objection run, each for 6.0 µs. A station that stops in its frame, or meets a
line fault, drives nothing further (R16, R17, R18, R20, R21, R27, R28, R29, R30, R31). That LTX is held as the length of its
pulse is the model's form (log 39), where the slot after a missing one is due its reading (log 40). -/
def Obligations.LineDriven : Prop :=
  ∀ s : State,
    let works := s.suu.startUp = .joining ∨ s.suu.startUp = .joined
    let receives := s.lcu.tx = .idle ∨ s.lcu.tx = .waiting
    (¬works ∨ s.lcu.tx = .recovering ∨ s.lcu.tx = .halted ∨ s.lcu.tx = .muted → driveOf s = none) ∧
    (∀ sent : Bool, works → s.lcu.tx = .contending ∨ s.lcu.tx = .sending →
      (sentBits s)[s.lif.cells.length]? = some sent →
      driveOf s =
        (if s.lif.cells = [] then some (if sent then 18000 else 22000)
         else if s.lif.opened then some (if sent then 2000 else 6000)
         else none)) ∧
    (works → s.lcu.tx = .slots →
      driveOf s =
        (if s.lif.opened = false then none
         else if s.lif.ack = none ∨ s.lif.ack = some .zero then some 2000
         else some 6000)) ∧
    (works → receives →
      (s.lif.opened = false ∨ s.lif.decode = .frame → driveOf s = none) ∧
      (s.lif.opened = true → s.lif.decode = .hunt → driveOf s = if s.lif.run then some 6000 else none) ∧
      (s.lif.opened = true → s.lif.decode = .tail →
        (∀ f, receive s.lif.cells = .clean f →
          driveOf s = if s.lif.ack = none ∨ s.lif.ack = some .widthError then some 6000 else none) ∧
        (∀ e k, receive s.lif.cells = .errored e k → driveOf s = if s.lif.ack = none then none else some 6000) ∧
        (receive s.lif.cells = .unplaced → driveOf s = none))) ∧
    (∀ ns, works → receives → s.lif.dominant = false →
      (s.lif.decode = .hunt → ∃ t, exec (.lineLevelChange (.toDominant ns)) s = .next t ∧
        t.ltx = if s.lif.run then some 6000 else none) ∧
      (∀ f, s.lif.decode = .tail → s.lif.ack = none → receive s.lif.cells = .clean f →
        7000 < s.lif.since + ns → s.lif.since + ns ≤ 9000 →
        ∃ t, exec (.lineLevelChange (.toDominant ns)) s = .next t ∧ t.ltx = some 6000) ∧
      (∀ e k a, s.lif.decode = .tail → s.lif.ack = some a → receive s.lif.cells = .errored e k →
        7000 < s.lif.since + ns → s.lif.since + ns ≤ 9000 →
        ∃ t, exec (.lineLevelChange (.toDominant ns)) s = .next t ∧ t.ltx = some 6000)) ∧
    (∀ ns, works → s.lcu.tx = .slots → s.lif.dominant = false → s.lif.decode = .tail → s.lif.ack = none →
      15000 < s.lif.since + ns → s.lif.since + ns ≤ 17000 →
      ∃ t, exec (.lineLevelChange (.toDominant ns)) s = .next t ∧ t.lif.ack = some .missing ∧ t.ltx = some 6000) ∧
    (∀ ns, s.lif.dominant = true → s.lif.cells ≠ [] →
      ∃ t, exec (.lineLevelChange (.toRecessive ns)) s = .next t ∧ t.ltx = none) ∧
    (works → s.lif.dominant = true → s.lif.faultFound = false → ∃ t, exec .lineFault s = .next t ∧ t.ltx = none) ∧
    (QueueSound s → s.lcu.tx = .contending →
      ∀ cell < 10, (sentBits s)[cell]? = some true → ∃ t, exec (.arbitrationLost cell) s = .next t ∧ t.ltx = none)

/-- LINE_LEVEL_CHANGE with the pulse readings: the level is taken. Dominant: the two quiet waits stop; inside a frame an edge
up to 7.0 µs after the last boundary makes its cell a width error and opens none, an edge up to 9.0 µs opens the next cell, a
later one none; a sender's ack slot that has not come 9.0 µs after the last boundary is missing, and the edge that comes next
is held against the boundary that was due; a line whose frames are not read yet is no longer idle. Recessive: the cell that
was open is read by its pulse, the first from 16.0 µs on, the last CRC cell brings TAIL; the quiet waits start, a start mark
not recognised leaves HUNT without idle seen (R10, R17, R18, R19, R20, R29, R45). The frame noted for the fault log is the
model's reading (log 20), the count anew in a held HUNT too (log 21), the edge's age (log 10), the cells that two rows may
report (log 9), the slot after a missing one (log 40). -/
def Obligations.LevelChanges : Prop :=
  (readCell .missing = .missing ∧ readCell .earlyEdge = .widthError ∧
     ∀ ns,
       (ns < 1000 → readCell (.pulse ns) = .widthError) ∧
       (1000 ≤ ns → ns < 3500 → readCell (.pulse ns) = .one) ∧
       (3500 ≤ ns → ns < 4500 → readCell (.pulse ns) = .widthError) ∧
       (4500 ≤ ns → ns ≤ 7000 → readCell (.pulse ns) = .zero) ∧
       (7000 < ns → readCell (.pulse ns) = .widthError)) ∧
  (∀ (f : Frame) (cells : List CellReading), cells <+: cleanCells (wireBits f) →
     (cells.length < 23 → placedCells cells = none) ∧
     (23 ≤ cells.length → placedCells cells = some (39 + 8 * (payloadBytes f.body).length) ∧
       (cleanCells (wireBits f)).length = 39 + 8 * (payloadBytes f.body).length)) ∧
  (∀ (s : State) (ns : Nat), s.lif.dominant = false →
     let x := s.lif
     let age := x.since + ns
     let missed := s.lcu.tx = .slots ∧ x.decode = .tail ∧ x.ack = none ∧ 9000 < age
     ∃ (t : State) (y : Lif), exec (.lineLevelChange (.toDominant ns)) s = .next t ∧
       (x.decode = .hunt → y = { x with opened := x.run }) ∧
       (missed →
         (age ≤ 15000 → y = { x with since := age - 8000, opened := false, ack := some .widthError }) ∧
         (15000 < age → age ≤ 17000 → y = { x with since := 0, opened := true, ack := some .missing }) ∧
         (17000 < age → y = { x with since := age - 8000, opened := false, ack := some .missing })) ∧
       (x.decode ≠ .hunt → ¬missed →
         (9000 < age → y = { x with since := age, opened := false }) ∧
         (7000 < age → age ≤ 9000 → y = { x with since := 0, opened := true }) ∧
         (age ≤ 7000 →
           (∀ a, x.ack = some a → y = { x with since := age, opened := false, ack := some .widthError }) ∧
           (x.ack = none → x.cells = [] → y = { x with since := age, opened := false }) ∧
           (∀ cells c, x.ack = none → x.cells = cells ++ [c] →
             y = { x with since := age, opened := false, cells := cells ++ [.widthError] }))) ∧
       t.lif =
         { y with
           dominant := true, edgeNew := true
           idleSeen := x.idleSeen && (s.suu.startUp == .joining || s.suu.startUp == .joined) } ∧
       t.lcu =
         { s.lcu with
           recoveryQuiet := .off, domFrame := (attempted s).map fun f => (f.place.cls, f.attempts) } ∧
       t.suu = { s.suu with joinWait := .off } ∧ StepFrame [.suu, .lif, .lcu] 0 s t) ∧
  (∀ (s : State) (ns : Nat), s.lif.dominant = true →
     let x := s.lif
     let pulse := if x.decode = .frame ∧ x.cells = [] then ns - 16000 else ns
     let cells := x.cells ++ [readCell (.pulse pulse)]
     ∃ (t : State) (y : Lif), exec (.lineLevelChange (.toRecessive ns)) s = .next t ∧
       (x.decode = .hunt → y = x) ∧
       (x.decode ≠ .hunt → x.opened = false → y = { x with since := x.since + pulse }) ∧
       (x.decode = .frame → x.opened = true →
         y =
           { x with
             since := x.since + pulse, cells := cells
             decode := if placedCells cells = some cells.length then .tail else .frame }) ∧
       (x.decode = .tail → x.opened = true →
         y =
           { x with
             since := x.since + pulse, ack := if x.ack = none then some (readCell (.pulse pulse)) else x.ack }) ∧
       t.lif =
         { y with
           dominant := false, opened := false, faultFound := false, edgeNew := false
           idleSeen := x.idleSeen && x.decode != .hunt } ∧
       t.lcu =
         { s.lcu with
           recoveryQuiet := if s.lcu.tx = .recovering then .running 10000 else .off, domFrame := none } ∧
       t.suu =
         { s.suu with
           joinWait :=
             if s.suu.startUp = .joining ∧ frameAt .hello s.lcu.queue = none then .running 5000 else .off } ∧
       StepFrame [.suu, .lif, .lcu] 0 s t)

/-- LINE_IDLE in HUNT on a recessive line: idle seen, an objection run over; WAITING offers its first frame; an attempt left
in its slots ends as OBJECTED, whatever its marks, content and count, and the first frame left is offered.
START_MARK_RECOGNIZED after a dominant edge at idle, and OBJECTION_RUN_BEGUN at a receiver: the decode state alone; a run is
driven by a station whose transmitter works (R16, R19, R20, R22, R30, R31, R40, R41, R42). That a page or VERDICT asked for
again is queued before the transmitter's own move, so that WAITING is entered and not IDLE first, is the model's choice (log
13). That the pending verdict kind outlasts its marker is the model's choice (log 41). That a dropped HOST verdict's clock
runs again only in the phase TURN, and that the 5 ms wait stops at an early entry to JOINED, are the model's readings (logs
15, 24). -/
def Obligations.LineRows : Prop :=
  (∀ s : State, s.lif.decode = .hunt → s.lif.dominant = false →
     let idle : Lif := { s.lif with idleSeen := true, run := false }
     (s.lcu.tx ≠ .slots → s.lcu.tx ≠ .waiting →
       ∃ t, exec .lineIdle s = .next t ∧ t.lif = idle ∧ StepFrame [.lif] 0 s t) ∧
     (s.lcu.tx = .waiting → s.lcu.queue ≠ [] →
       ∃ t, exec .lineIdle s = .next t ∧ t.lif = idle ∧
         t.lcu =
           { s.lcu with
             queue := offered s s.lcu.queue, tx := .contending, history := entered [.contending] s.lcu.history } ∧
         StepFrame [.lif, .lcu] 0 s t) ∧
     (s.lcu.tx = .slots → QueueSound s → ∀ f, PlainAttempt f s → f.attempts < 3 →
       ∃ t, exec .lineIdle s = .next t ∧ t.lif = idle ∧
         t.lcu =
           { s.lcu with
             queue := offered s (ended 1 s.lcu.queue), tx := .contending
             history := entered [.waiting, .contending] s.lcu.history } ∧
         StepFrame [.lif, .lcu] 0 s t) ∧
     (s.lcu.tx = .slots → QueueSound s →
       let u := endAttempt .objected s
       ∃ t, exec .lineIdle s = .next t ∧ t.lif = idle ∧ LeavesAs u 0 s t ∧
         t.lcu =
           (if u.lcu.queue = [] then u.lcu
            else
              { u.lcu with
                queue := offered s u.lcu.queue, tx := .contending, history := entered [.contending] u.lcu.history }))) ∧
  ∀ s : State, s.suu.startUp = .joining ∨ s.suu.startUp = .joined →
    (s.lif.decode = .hunt → s.lif.idleSeen = true → s.lif.dominant = true →
      ∃ t, exec .startMarkRecognized s = .next t ∧
        t.lif =
          { s.lif with decode := .frame, idleSeen := false, cells := [], opened := true, since := 0, ack := none } ∧
        StepFrame [.lif] 0 s t) ∧
    ∀ cells : List CellPulse, s.lif.decode = .frame ∨ s.lif.decode = .tail →
      s.lcu.tx ≠ .contending → s.lcu.tx ≠ .sending → s.lcu.tx ≠ .slots →
      s.lif.cells <+: cells.map readCell → beginsRun (cells.map readCell) = true →
      ∃ t, exec (.objectionRunBegun cells) s = .next t ∧
        t.lif = { hunted s.lif with run := s.lcu.tx == .idle || s.lcu.tx == .waiting } ∧ StepFrame [.lif] 0 s t

/-- Contention and sending: ARBITRATION_LOST makes the station a receiver of the winner with its frame waiting and uncounted,
or gone where it was withdrawn, or with its pending content; ARBITRATION_WON makes it the sender, SLOTS_REACHED brings it to
its slots (R27, R34, R37, R39, R41, R42). The frame of the fault log is none after LOST (log 20). -/
def Obligations.Contention : Prop :=
  ∀ s : State,
    (∀ cell : Nat, s.lcu.tx = .contending → cell < 10 → (sentBits s)[cell]? = some true → QueueSound s →
      ∃ t, exec (.arbitrationLost cell) s = .next t ∧
        t.lif =
          { s.lif with
            decode := .frame, idleSeen := false, opened := false
            cells := cleanCells ((sentBits s).take cell) ++ [.zero] } ∧
        t.lcu.domFrame = none ∧ EndsAttempt .lost s t ∧
        ∀ f, PlainAttempt f s →
          t.lcu =
            { s.lcu with
              queue := ended 0 s.lcu.queue, tx := .waiting, history := entered [.waiting] s.lcu.history
              domFrame := none } ∧
          StepFrame [.lif, .lcu] 0 s t) ∧
    (s.lcu.tx = .contending →
      ∃ t, exec .arbitrationWon s = .next t ∧
        t.lif = { s.lif with decode := .frame, idleSeen := false, cells := cleanCells ((sentBits s).take 10) } ∧
        t.lcu = { s.lcu with tx := .sending, history := entered [.sending] s.lcu.history } ∧
        StepFrame [.lif, .lcu] 0 s t) ∧
    (s.lcu.tx = .sending →
      ∃ t, exec .slotsReached s = .next t ∧
        t.lif = { s.lif with decode := .tail, idleSeen := false, cells := cleanCells (sentBits s) } ∧
        t.lcu = { s.lcu with tx := .slots, history := entered [.slots] s.lcu.history } ∧
        StepFrame [.lif, .lcu] 0 s t)

/-- BIT_MISMATCH: in contention a reading other than the bit sent that is no 0 over a 1, in sending any such reading past the
contention field: the attempt ends counted, whatever its marks, content and count, and the station stops driving, a receiver
in TAIL after the last CRC cell, that leaves the frame on a missing cell or on a width error up to the length field. A plain
frame waits (R27, R28, R29, R30, R37, R39, R41, R42, R43). The fault log's frame follows the mismatch with the raised count,
the model's reading of R52 (log 20). That a page or VERDICT asked for again is queued before the transmitter's own move, so
that WAITING is entered and not IDLE first, is the model's choice (log 13). That the pending verdict kind outlasts its marker
is the model's choice (log 41). That a dropped HOST verdict's clock runs again only in the phase TURN, and that the 5 ms wait
stops at an early entry to JOINED, are the model's readings (logs 15, 24). -/
def Obligations.BitMismatch : Prop :=
  ∀ (s : State) (cell : Nat) (pulse : CellPulse) (sent : Bool) (f : QFrame),
    (sentBits s)[cell]? = some sent → readCell pulse ≠ .ofBit sent →
    (s.lcu.tx = .contending ∧ cell < 10 ∧ ¬(sent = true ∧ readCell pulse = .zero) ∨
      s.lcu.tx = .sending ∧ 10 ≤ cell) →
    QueueSound s → attempted s = some f →
    ∃ t, exec (.bitMismatch cell pulse) s = .next t ∧ t.ltx = none ∧
      t.lif =
        (if readCell pulse = .missing ∨ readCell pulse = .widthError ∧ cell < 23 then
          { hunted s.lif with run := true }
         else
          { s.lif with
            decode := if cell + 1 = (sentBits s).length then .tail else .frame
            idleSeen := false, opened := false, cells := cleanCells ((sentBits s).take cell) ++ [readCell pulse] }) ∧
      t.lcu.domFrame = (s.lcu.domFrame.map fun _ => (f.place.cls, f.attempts + 1)) ∧ EndsAttempt .mismatch s t ∧
      (PlainAttempt f s → f.attempts < 3 →
        t.lcu =
          { s.lcu with
            queue := ended 1 s.lcu.queue, tx := .waiting, history := entered [.waiting] s.lcu.history
            domFrame := s.lcu.domFrame.map fun _ => (f.place.cls, f.attempts + 1) } ∧
        StepFrame [.lif, .lcu] 0 s t)

/-- FRAME_DISCARDED at its sender: an objection slot read 0 ends the attempt, whatever its marks, content and count, OBJECTED
with an ack read 0 and UNHEARD otherwise, counted alike; a width error in the objection slot, a missing cell too, leaves it
in SLOTS. At a receiver: HUNT, and nothing else (R18, R31, R32, R37, R39, R41, R42, R43). That an ack slot of bad width
counts as an ack read 1 in the report is the model's reading (log 22); the note of the fault log, R52's frame, is cleared
(log 20). That a page or VERDICT asked for again is queued before the transmitter's own move, so that WAITING is entered and
not IDLE first, is the model's choice (log 13). That the pending verdict kind outlasts its marker is the model's choice (log
41). That a dropped HOST verdict's clock runs again only in the phase TURN, and that the 5 ms wait stops at an early entry to
JOINED, are the model's readings (logs 15, 24). -/
def Obligations.FrameDiscarded : Prop :=
  ∀ (s : State) (cells : List CellPulse) (ack objection : CellPulse),
    s.suu.startUp = .joining ∨ s.suu.startUp = .joined → s.lif.decode = .frame ∨ s.lif.decode = .tail →
    (s.lcu.tx = .slots → cells.map readCell = s.lif.cells →
      (readCell objection = .zero → QueueSound s →
        ∃ t, exec (.frameDiscarded cells ack objection) s = .next t ∧ t.lif = hunted s.lif ∧ t.lcu.domFrame = none ∧
          EndsAttempt (if readCell ack = .zero then .objected else .unheard) s t ∧
          ∀ f, PlainAttempt f s → f.attempts < 3 →
            t.lcu =
              { s.lcu with
                queue := ended 1 s.lcu.queue, tx := .waiting, history := entered [.waiting] s.lcu.history
                domFrame := none } ∧
            StepFrame [.lif, .lcu] 0 s t) ∧
      (readCell objection = .widthError ∨ readCell objection = .missing →
        ∃ t, exec (.frameDiscarded cells ack objection) s = .next t ∧ t.lif = hunted s.lif ∧ t.lcu = lcuIdle s ∧
          StepFrame [.lif, .lcu] 0 s t)) ∧
    (s.lcu.tx ≠ .contending → s.lcu.tx ≠ .sending → s.lcu.tx ≠ .slots → s.lif.cells <+: cells.map readCell →
      readCell ack ≠ .missing → readCell objection ≠ .missing →
      ((∃ f, receive (cells.map readCell) = .clean f ∧ readCell objection ≠ .one) ∨
        ∃ e k, receive (cells.map readCell) = .errored e k ∧
          ((s.lcu.tx = .idle ∨ s.lcu.tx = .waiting) → readCell objection ≠ .one)) →
      ∃ t, exec (.frameDiscarded cells ack objection) s = .next t ∧ t.lif = hunted s.lif ∧ t.lcu = lcuIdle s ∧
        StepFrame [.lif, .lcu] 0 s t)

/-- LINE_FAULT, once in a dominant period: the frame abandoned, LINE_FAULT raised; from IDLE, WAITING or an attempt, which
ends counted with all that its end brings about, a STUCK record and RECOVERING; in RECOVERING, or while the fault memory
runs, a double fault: its record, the newest STUCK record escalated, HALTED, every frame still queued dropped; HALTED and
MUTED stay (R19, R21, R37, R39, R42, R43, R44, R48, R49, R51, R52, R53). Which frame the record names is the model's reading
(log 20). That the pending verdict kind outlasts its marker is the model's choice (log 41). That a dropped HOST verdict's
clock runs again only in the phase TURN, and that the 5 ms wait stops at an early entry to JOINED, are the model's readings
(logs 15, 24). -/
def Obligations.LineFaultReported : Prop :=
  ∀ s : State, s.suu.startUp = .joining ∨ s.suu.startUp = .joined → s.lif.dominant = true → s.lif.faultFound = false →
    let lineAfter := { hunted s.lif with faultFound := true }
    let logWith (r : FaultRec) : List FaultRec :=
      if s.lcu.log.length < 4 then s.lcu.log ++ [r] else (s.lcu.log ++ [r]).drop 1
    let record (cause : FaultCause) (escalated : Bool) (frame : Option (Nat × Nat)) : FaultRec :=
      { cause := cause, escalated := escalated, history := s.lcu.history, round := s.rng.round, clock := s.rck.count,
        cls := (frame.map Prod.fst).getD 0, attempts := (frame.map Prod.snd).getD 0 }
    let escalatedLog (frame : Option (Nat × Nat)) : List FaultRec :=
      (escalateNewest (logWith (record .doubleFault true frame)).reverse).reverse
    let attempts := s.lcu.tx = .contending ∨ s.lcu.tx = .sending ∨ s.lcu.tx = .slots
    let recovers (u : State) (frame : Option (Nat × Nat)) (t : State) : Prop :=
      t.lcu =
        { u.lcu with
          tx := .recovering, history := entered [.recovering] s.lcu.history, log := logWith (record .stuck false frame)
          recovered := true, recoveryDeadline := .running 200000, recoveryQuiet := .off }
    (s.lcu.tx = .halted ∨ s.lcu.tx = .muted →
      ∃ t, exec .lineFault s = .next t ∧ t.lif = lineAfter ∧ StepFrame [.lif] Event.lineFault.flag s t) ∧
    (QueueSound s → s.lcu.tx = .idle ∨ s.lcu.tx = .waiting → s.lcu.faultMemory = .off →
      ∃ t, exec .lineFault s = .next t ∧ t.lif = lineAfter ∧ recovers s s.lcu.domFrame t ∧
        StepFrame [.lif, .lcu] Event.lineFault.flag s t) ∧
    (∀ f, QueueSound s → attempts → s.lcu.faultMemory = .off → attempted s = some f →
      ∃ t, exec .lineFault s = .next t ∧ t.lif = lineAfter ∧
        recovers (endAttempt .lineFault s) (some (f.place.cls, f.attempts + 1)) t ∧
        LeavesAs (endAttempt .lineFault s) Event.lineFault.flag s t ∧
        (PlainAttempt f s → f.attempts < 3 →
          t.lcu.queue = ended 1 s.lcu.queue ∧ StepFrame [.lif, .lcu] Event.lineFault.flag s t)) ∧
    (QueueSound s →
      s.lcu.tx = .recovering ∨ (s.lcu.tx = .idle ∨ s.lcu.tx = .waiting) ∧ s.lcu.faultMemory.on = true →
      ∃ t, exec .lineFault s = .next t ∧ t.lif = lineAfter ∧
        Halts s (escalatedLog s.lcu.domFrame) Event.lineFault.flag s t) ∧
    (∀ f, QueueSound s → attempts → s.lcu.faultMemory.on = true → attempted s = some f →
      ∃ t, exec .lineFault s = .next t ∧ t.lif = lineAfter ∧
        Halts (endAttempt .lineFault s) (escalatedLog (some (f.place.cls, f.attempts + 1))) Event.lineFault.flag s t)

/-- RECOVERY_QUIET_END leaves RECOVERING with the fault memory running and offers at once; RECOVERY_DEADLINE writes a
RECOVERY_TIMEOUT record, escalates the STUCK record and halts, dropping every queued frame; FAULT_MEMORY_EXPIRY ends the
memory (R41, R43, R45, R46, R47, R49, R52, R53). That the pending verdict kind outlasts its marker is the model's choice (log
41). That a dropped HOST verdict's clock runs again only in the phase TURN, and that the 5 ms wait stops at an early entry to
JOINED, are the model's readings (logs 15, 24). -/
def Obligations.RecoveryEnds : Prop :=
  ∀ s : State,
    (s.lcu.tx = .recovering → s.lcu.recoveryQuiet.on = true →
      (s.lcu.queue = [] →
        ∃ t, exec .recoveryQuietEnd s = .next t ∧
          t.lcu =
            { s.lcu with
              tx := .idle, history := entered [.idle] s.lcu.history, recoveryDeadline := .off, recoveryQuiet := .off
              faultMemory := .running 1000000 } ∧
          StepFrame [.lcu] 0 s t) ∧
      (s.lcu.queue ≠ [] →
        ∃ t, exec .recoveryQuietEnd s = .next t ∧
          t.lcu =
            { s.lcu with
              queue := offered s s.lcu.queue, tx := .contending, history := entered [.waiting, .contending] s.lcu.history
              recoveryDeadline := .off, recoveryQuiet := .off, faultMemory := .running 1000000 } ∧
          StepFrame [.lcu] 0 s t)) ∧
    (s.lcu.tx = .recovering → s.lcu.recoveryDeadline.on = true →
      let r : FaultRec :=
        { cause := .recoveryTimeout, escalated := true, history := s.lcu.history, round := s.rng.round,
          clock := s.rck.count, cls := 0, attempts := 0 }
      let log := if s.lcu.log.length < 4 then s.lcu.log ++ [r] else (s.lcu.log ++ [r]).drop 1
      ∃ t, exec .recoveryDeadline s = .next t ∧ t.lif = s.lif ∧ (t.lcu.queue = [] ∧ t.lcu.tx = .halted) ∧
        (QueueSound s → Halts s (escalateNewest log.reverse).reverse 0 s t)) ∧
    (s.lcu.faultMemory.on = true →
      ∃ t, exec .faultMemoryExpiry s = .next t ∧ t.lcu = { s.lcu with faultMemory := .off } ∧ StepFrame [.lcu] 0 s t)

/-- The end of an attempt: taken or withdrawn the frame leaves, pending content takes its place, a fourth counted end drops
it with TX_DROPPED and its hander told, any other leaves it queued; then IDLE or WAITING. A dropped HOST verdict's turn has
its clock running again, a dropped AUTOMATIC one is handed anew in HELD, the marker is cleared; the dirty mark of a page
goes, and a page that has left is asked for again (R11, R37, R38, R39, R41, R42, R43, R65, R71, R165, R166, R173). A marker's
turn that is no longer the one in progress is only cleared, the model's reading (log 15). That a page or VERDICT asked for
again is queued before the transmitter's own move, so that WAITING is entered and not IDLE first, is the model's choice (log
13). That the pending verdict kind outlasts its marker is the model's choice (log 41). That its clock runs again only in the
phase TURN (log 15), and that the 5 ms wait stops at an early entry to JOINED (log 24), are the model's readings too. -/
def Obligations.AttemptEnds : Prop :=
  ∀ (s : State) (e : AttemptEnd) (f : QFrame), QueueSound s → attempted s = some f →
    let t := endAttempt e s
    let rest := s.lcu.queue.filter fun g => !g.inAttempt
    let swap (g : QFrame) : List QFrame := s.lcu.queue.map fun x => if x.inAttempt then g else x
    let dropped : Bool := !f.withdrawn && f.pending.isNone && e.counted && f.attempts == 3
    let goes : Bool := if e = .taken then f.withdrawn || f.pending.isNone else f.withdrawn || dropped
    let current : Bool := s.cnf.verdictPending == some s.rng.turn && s.rng.answering.isSome
    let again : Option Content :=
      match f.place with
      | .tally p => if s.cnf.dirty.contains p.val then some (.tally p none) else none
      | .verdict =>
        if dropped && current && s.cnf.verdictKind == .automatic && s.rng.phase == .held then
          s.rng.answering.map fun team => .verdict (byteOf s.rng.turn) (byteOf team) .timeout none
        else none
      | _ => none
    (goes = true →
      t.lcu.queue =
        match again with
        | none => rest
        | some c => insertFrame (fresh c .cnf) rest) ∧
    (∀ c, e = .taken → f.pending = some c → f.withdrawn = false → t.lcu.queue = swap (fresh c f.hander)) ∧
    (∀ c, e ≠ .taken → f.withdrawn = false → f.pending = some c →
      t.lcu.queue =
        swap { f with content := c, pending := none, attempts := 0, round := none, inAttempt := false }) ∧
    (e ≠ .taken → f.withdrawn = false → f.pending = none → dropped = false →
      t.lcu.queue =
        swap { f with inAttempt := false, attempts := f.attempts + (if e.counted then 1 else 0) }) ∧
    (let tx : TxState := if t.lcu.queue = [] then .idle else .waiting
     t.lcu = { s.lcu with queue := t.lcu.queue, tx := tx, history := entered [tx] s.lcu.history }) ∧
    t.cmp.flags = s.cmp.flags ||| raisedIf dropped .txDropped ∧
    t.pnl.flash =
      (if dropped = true ∧ (f.place = .claim ∨ f.place = .choice ∨ f.place = .pass) then .running 2000000
       else s.pnl.flash) ∧
    t.icu =
      { s.icu with
        record :=
          { s.icu.record with
            ownClaim :=
              if f.place = .claim ∧ dropped = true then .dropped
              else if f.place = .claim ∧ e ≠ .taken ∧ f.withdrawn = true then .none
              else s.icu.record.ownClaim
            claimStamp :=
              if f.place = .claim ∧ (dropped = true ∨ e ≠ .taken ∧ f.withdrawn = true) then none
              else s.icu.record.claimStamp
            pendingKey :=
              if f.place = .choice ∧ (dropped = true ∨ e ≠ .taken ∧ f.withdrawn = true) then 0
              else s.icu.record.pendingKey } } ∧
    t.suu =
      (if f.place = .hello ∧ goes = true ∧ s.suu.startUp = .joining then
        { s.suu with startUp := .joined, joinWait := .off }
       else s.suu) ∧
    t.cnf =
      { s.cnf with
        verdictPending :=
          if f.place = .verdict ∧ dropped = true ∧ again = none then none else s.cnf.verdictPending
        dirty :=
          match f.place with
          | .tally p => s.cnf.dirty.filter (· != p.val)
          | _ => s.cnf.dirty } ∧
    t.rng =
      { s.rng with
        answerRunning := s.rng.answerRunning ||
          (f.place == .verdict && dropped && current && s.cnf.verdictKind == .host && s.rng.phase == .turn) } ∧
    t.clt = s.clt ∧ t.cht = s.cht ∧ t.scu = s.scu ∧ t.prs = s.prs ∧ t.lif = s.lif ∧ t.rck = s.rck ∧ t.sto = s.sto

/-- The answers to a hand-over and what each does to the queue; a frame that finds the line idle, or a start mark whose edge
is no more than 1.0 µs old, begins at once (R26, R36, R37, R38, R40). How the edge's age is known, and that an edge exactly
1.0 µs old is joined, as R26 says and R40 does not, is the model's choice (log 10). -/
def Obligations.HandOver : Prop :=
  ∀ (s : State) (c : Content) (h : Hander), QueueSound s →
    (s.lcu.tx = .halted ∨ s.lcu.tx = .muted →
      handAnswer c s = .dropped ∧ handOver c h s = raise .txDropped s) ∧
    (s.lcu.tx ≠ .halted → s.lcu.tx ≠ .muted → s.suu.startUp = .joining ∨ s.suu.startUp = .joined →
      s.suu.identity.role.hasPlace c.place = true →
      (frameAt c.place s.lcu.queue = none →
        handAnswer c s = .queued ∧ Queued c h s (handOver c h s) ∧
          (insertFrame (fresh c h) s.lcu.queue).Perm (fresh c h :: s.lcu.queue) ∧
          ((insertFrame (fresh c h) s.lcu.queue).map fun f => f.place.index).Pairwise (· < ·)) ∧
      (∀ f, frameAt c.place s.lcu.queue = some f → c.place ≠ .choice ∨ f.withdrawn = true →
        handAnswer c s = .already f.inAttempt ∧ handOver c h s = s) ∧
      (∀ f, frameAt c.place s.lcu.queue = some f → c.place = .choice → f.withdrawn = false →
        handAnswer c s = .replaced ∧
          handOver c h s =
            setQueue
              (s.lcu.queue.map fun g =>
                if g.place ≠ .choice then g
                else if g.inAttempt then { g with pending := some c }
                else { g with content := c, attempts := 0, round := none }) s))

/-! ### Takings (02 R32, R33; 05 to 08, 11) -/

/-- OPEN_TAKEN, another desk's or the console's own: the round context from number and block, every quantity clamped, the
window cut to the clock; clock at 0 and running; claim list, choice table and press record emptied; own CLAIM, CHOICE and
PASS withdrawn; ROUND_OPENED; with arm delay 0 the phase is LIVE at once; the own frame leaves the queue (R41, R42, R61, R62,
R75, R76, R77, R80, R98, R121, R203). -/
def Obligations.OpenTaken : Prop :=
  ∀ (round : Byte) (b : OpenBlock) (s : State), Takes .open_ ⟨0, round, .open_ b⟩ s → TablesSound s → QueueSound s →
    let arm := b.armDelay.toNat * 1000
    let window := min (max 1 (min 1677 b.window.toNat)) ((16777215 - arm) / 10000)
    ∃ t, exec (.openTaken 0 round b) s = .next t ∧ Received ⟨0, round, .open_ b⟩ s t ∧
      t.rng =
        { round := round.toNat
          format := if b.flags.getLsbD 7 then .choice else .buzz
          mode := if b.flags.getLsbD 6 then .change else .first
          noneg := b.flags.getLsbD 5
          grain := 4 ^ (b.flags.toNat % 4)
          armTicks := arm, jumpLockTicks := b.jumpLock.toNat * 1000, settleTicks := max 5 b.settle.toNat * 100
          answerTime := max 100 (min 6000 b.answerTime.toNat), windowTicks := window * 10000
          v := min 999 b.v.toNat, w := min 999 b.w.toNat, b := min 999 b.b.toNat, p := min 100 b.p.toNat
          levels := (List.range 16).map fun i => b.levels.toNat / 4 ^ (15 - i) % 4
          phase := if arm = 0 then .live else .reading
          closePoint := arm + window * 10000, closed := false, saturated := false, turn := 0, answering := none
          answerClock := 0, answerRunning := false, correctKey := none } ∧
      t.rck = { count := 0, running := true } ∧ t.clt.entries = [] ∧
      t.cht.records = List.replicate 16 { key := 0, stamp := 0, desk := 0, changes := 0 } ∧
      t.icu.record =
        { ownClaim := .none, claimStamp := none, lastKey := 0, pendingKey := 0, jumpLockEnd := 0, jumped := false,
          passTurn := none } ∧
      t.icu.hold = s.icu.hold ∧
      (∀ d, t.icu.input d =
        match (s.icu.input d).filter with
        | .pressFilter _ => { s.icu.input d with filter := .pressFilter 0 }
        | _ => s.icu.input d) ∧
      WithdrawnFrames { s with lcu := lcuTaken s } t ∧
      StepFrame [.lif, .prs, .lcu, .rck, .icu, .rng, .clt, .cht]
        (heardFlag ⟨0, round, .open_ b⟩ s ||| Event.roundOpened.flag) s t

/-- CLOSE_TAKEN, another desk's or the console's own: of another round, or in UNSYNCED or ENDED, nothing; else the close
point comes earlier and closed is yes: in READING, or at or before the arm, the round ends; else what closing brings about
follows; the own frame leaves the queue (R41, R42, R82, R83, R84, R92, R93, R95). -/
def Obligations.CloseTaken : Prop :=
  ∀ (round : Byte) (point : Triple) (s : State), Takes .close ⟨0, round, .close point⟩ s → TablesSound s →
    QueueSound s →
    let heard := heardFlag ⟨0, round, .close point⟩ s
    let m : State :=
      { s with
        lcu := lcuTaken s
        rng := { s.rng with closePoint := min s.rng.closePoint point.toNat, closed := true } }
    let applies := round.toNat = s.rng.round ∧ s.rng.phase ≠ .unsynced ∧ s.rng.phase ≠ .ended
    ∃ t, exec (.closeTaken 0 round point) s = .next t ∧ Received ⟨0, round, .close point⟩ s t ∧
      (¬applies → t.lcu = lcuTaken s ∧ StepFrame [.lif, .prs, .lcu] heard s t) ∧
      (applies → s.rng.phase = .reading ∨ point.toNat ≤ s.rng.armTicks →
        RoundEnds m t ∧ t.clt = s.clt ∧
          StepFrame ([.lif, .prs] ++ roundBlocks) (heard ||| Event.roundEnded.flag) s t) ∧
      (applies → s.rng.phase ≠ .reading → s.rng.armTicks < point.toNat →
        Follows m t ∧ StepFrame ([.lif, .prs] ++ roundBlocks) (heard ||| followFlags m) s t)

/-- VERDICT_TAKEN in full: the list is in step or is aligned with DIVERGED; turn and team are the frame's; the entry ends;
the turn is scored; a TEAM or WALL station adopts the check total, the console keeps its own and at the taking of its own
VERDICT clears its marker; RIGHT, VOID and the sixteenth turn end the round, others return to LIVE and what follows, follows;
in ENDED the phase stays (R87, R89, R90, R109, R110, R114, R139, R144, R150, R152, R165). That the pending verdict kind
outlasts its marker is the model's choice (log 41). -/
def Obligations.VerdictInFull : Prop :=
  ∀ (round turn team outcome : Byte) (check : Half) (o : TurnOutcome) (s : State),
    let f : Frame := ⟨0, round, .verdict turn team outcome check⟩
    Takes .verdict f s → TablesSound s → QueueSound s → ScoresSound s →
    1 ≤ team.toNat → team.toNat ≤ 16 → round.toNat = s.rng.round → s.rng.format = .buzz →
    s.rng.phase ≠ .unsynced → s.rng.phase ≠ .reading → 1 ≤ turn.toNat → turn.toNat ≤ 16 →
    outcomeOfCode outcome.toNat = some o →
    s.rng.turn < turn.toNat ∨ s.rng.turn = turn.toNat ∧ s.rng.answering ≠ none →
    let steps := s.rng.answering = some team.toNat ∧ s.rng.turn = turn.toNat
    let entries := if steps then s.clt.entries else alignEntries s.rng s.rck.count team.toNat s.clt.entries
    let x := s.scu.team team.toNat
    let scored := scoredRecord s.rng turn.toNat o x
    let final : TeamRec :=
      if s.suu.identity.role = .console then scored
      else { scored with total := checkOf check, unconfirmed := false }
    let ends := o = .right ∨ o = .void ∨ turn.toNat = 16
    let m : State :=
      { s with
        lcu := lcuTaken s
        clt := ⟨entries.map fun e => if e.team = team.toNat then closedEntry o e else e⟩
        rng :=
          { s.rng with
            turn := turn.toNat, answering := none, answerClock := 0, answerRunning := false
            phase := if s.rng.phase = .ended ∨ ends then s.rng.phase else .live } }
    let flags := heardFlag f s ||| Event.turnEnded.flag ||| raisedIf (!steps) .diverged |||
      raisedIf (scored.figures != x.figures || final.total != scored.total) .scoreChanged |||
      raisedIf (final.total != scored.total) .diverged
    ∃ t, exec (.verdictTaken 0 round turn team outcome check) s = .next t ∧ Received f s t ∧
      t.scu.records = ranked (s.scu.records.set (team.toNat - 1) final) ∧ t.cnf = cnfTaken s ∧
      (s.rng.phase = .ended → RoundSame m t ∧ StepFrame ([.lif, .prs, .scu, .cnf] ++ roundBlocks) flags s t) ∧
      (s.rng.phase ≠ .ended → ends →
        RoundEnds m t ∧ t.clt = m.clt ∧
          StepFrame ([.lif, .prs, .scu, .cnf] ++ roundBlocks) (flags ||| Event.roundEnded.flag) s t) ∧
      (s.rng.phase ≠ .ended → ¬ends →
        Follows m t ∧ StepFrame ([.lif, .prs, .scu, .cnf] ++ roundBlocks) (flags ||| followFlags m) s t)

/-- The list aligned with a verdict out of step: T's entry, or an adopted one, is the last of the granted part and ANSWERING;
another team's ANSWERING entry is WAITING again at its key position with its late flag set afresh; every other entry and the
order stand (R99, R111, R112, R113). -/
def Obligations.AlignmentPlacesTurn : Prop :=
  ∀ (r : Rng) (count team : Nat) (es : List Entry), ListOrdered es → 1 ≤ team → team ≤ 16 →
    let after := alignEntries r count team es
    ListOrdered after ∧
    (∃ e, (grantedPart after).getLast? = some e ∧ e.team = team ∧ e.status = .answering ∧ e.outcome = none ∧
      (∀ old ∈ es, old.team = team →
        e = { old with status := .answering, outcome := none }) ∧
      ((∀ old ∈ es, old.team ≠ team) →
        e =
          { team := team, desk := 0, stamp := count / r.grain, level := r.levels.getD (team - 1) 0
            status := .answering, outcome := none, late := false, adopted := true })) ∧
    (∀ old ∈ es, old.team ≠ team → old.status ≠ .answering → old ∈ after) ∧
    (∀ old ∈ es, old.team ≠ team → old.status = .answering →
      { old with
        status := .waiting, outcome := none, late := (grantedPart after).any (keyBefore old) } ∈ after) ∧
    (∀ e ∈ after, e.team = team ∨ ∃ old ∈ es, old.team = e.team) ∧
    (grantedPart after).dropLast = (grantedPart es).filter fun e => e.status != .answering && e.team != team

/-- VERDICT_TAKEN whose handling is less: a team outside 1..16 does nothing; in the other cases of R89 a TEAM or WALL station
compares and adopts the check total alone, the console nothing; the console's own frame leaves the queue and its marker is
cleared in every case (R41, R42, R89, R115, R150, R151, R152, R165). That the pending verdict kind outlasts its marker is the
model's choice (log 41). -/
def Obligations.VerdictLimited : Prop :=
  ∀ (round turn team outcome : Byte) (check : Half) (s : State),
    let f : Frame := ⟨0, round, .verdict turn team outcome check⟩
    Takes .verdict f s → TablesSound s → QueueSound s → ScoresSound s →
    let x := s.scu.team team.toNat
    let final : TeamRec :=
      if s.suu.identity.role = .console then x else { x with total := checkOf check, unconfirmed := false }
    (team.toNat = 0 ∨ 16 < team.toNat →
      ∃ t, exec (.verdictTaken 0 round turn team outcome check) s = .next t ∧ Received f s t ∧ t.lcu = lcuTaken s ∧
        t.cnf = cnfTaken s ∧ StepFrame [.lif, .prs, .lcu, .cnf] (heardFlag f s) s t) ∧
    (1 ≤ team.toNat → team.toNat ≤ 16 →
      s.rng.phase = .unsynced ∨ round.toNat ≠ s.rng.round ∨ s.rng.format = .choice ∨ s.rng.phase = .reading ∨
        turn.toNat = 0 ∨ 16 < turn.toNat ∨ outcome.toNat = 0 ∨ 5 < outcome.toNat ∨ turn.toNat < s.rng.turn ∨
        turn.toNat = s.rng.turn ∧ s.rng.answering = none →
      ∃ t, exec (.verdictTaken 0 round turn team outcome check) s = .next t ∧ Received f s t ∧ t.lcu = lcuTaken s ∧
        t.scu.records = ranked (s.scu.records.set (team.toNat - 1) final) ∧ t.cnf = cnfTaken s ∧
        StepFrame [.lif, .prs, .lcu, .scu, .cnf]
          (heardFlag f s ||| raisedIf (final.total != x.total) .scoreChanged |||
            raisedIf (final.total != x.total) .diverged) s t)

/-- PASS_TAKEN, another desk's or the own: the turn in progress ends as PASS, unscored; the sixteenth ends the round, after
any other what follows, follows; another PASS does nothing; a console with its VERDICT for that turn pending gives it up with
VERDICT_SUPERSEDED, its frame leaves the queue and its marker is cleared, before what follows (R39, R41, R42, R84, R87, R88,
R91, R95, R109, R145, R167). That an own PASS has left the queue before the round's end withdraws the other frames is the
model's order of the parts of a taking (log 12). That the pending verdict kind outlasts its marker is the model's choice (log
41). -/
def Obligations.PassTaken : Prop :=
  ∀ (desk : Desk) (round turn team : Byte) (s : State),
    let f : Frame := ⟨desk, round, .pass turn team⟩
    Takes .pass f s → 1 ≤ desk.toNat → desk.toNat ≤ 48 → TablesSound s → QueueSound s →
    let passes := round.toNat = s.rng.round ∧ (s.rng.phase = .turn ∨ s.rng.phase = .held) ∧ turn.toNat = s.rng.turn ∧
      s.rng.answering = some team.toNat
    let supersedes : Bool := s.suu.identity.role == .console && s.cnf.verdictPending == some turn.toNat
    let m : State :=
      { s with
        lcu := if supersedes then lcuWithout .verdict (lcuTaken s) else lcuTaken s
        clt := ⟨s.clt.entries.map fun e => if e.team = team.toNat then closedEntry .pass e else e⟩
        rng :=
          { s.rng with
            answering := none, answerClock := 0, answerRunning := false
            phase := if 16 ≤ s.rng.turn then s.rng.phase else .live } }
    let flags := heardFlag f s ||| Event.turnEnded.flag ||| raisedIf supersedes .verdictSuperseded
    ∃ t, exec (.passTaken desk round turn team) s = .next t ∧ Received f s t ∧
      (¬passes → t.lcu = lcuTaken s ∧ StepFrame [.lif, .prs, .lcu] (heardFlag f s) s t) ∧
      (passes → t.cnf = (if supersedes then { s.cnf with verdictPending := none } else s.cnf)) ∧
      (passes → 16 ≤ s.rng.turn →
        RoundEnds m t ∧ t.clt = m.clt ∧
          StepFrame ([.lif, .prs, .cnf] ++ roundBlocks) (flags ||| Event.roundEnded.flag) s t) ∧
      (passes → s.rng.turn < 16 →
        Follows m t ∧ StepFrame ([.lif, .prs, .cnf] ++ roundBlocks) (flags ||| followFlags m) s t)

/-- CLAIM_TAKEN, another desk's or the own: accepted, a new team enters at its key position, an earlier stamp of a WAITING
team replaces it, any other is ignored; the own CLAIM's record becomes TAKEN with the frame's stamp; a desk whose pending
CLAIM a teammate has overtaken gives it up, in every phase; a grant that this makes due follows at once (R39, R41, R42, R65,
R66, R84, R102, R103, R104, R105, R108, R120). -/
def Obligations.ClaimTaken : Prop :=
  ∀ (desk : Desk) (round : Byte) (stamp : Triple) (team : Byte) (s : State),
    let f : Frame := ⟨desk, round, .claim stamp team⟩
    Takes .claim f s → 1 ≤ desk.toNat → desk.toNat ≤ 48 → TablesSound s → QueueSound s →
    let accepted := round.toNat = s.rng.round ∧ s.rng.format = .buzz ∧
      (s.rng.phase = .live ∨ s.rng.phase = .turn ∨ s.rng.phase = .held) ∧
      s.rng.armTicks / s.rng.grain ≤ stamp.toNat ∧ 1 ≤ s.rng.closePoint ∧
      stamp.toNat ≤ (s.rng.closePoint - 1) / s.rng.grain ∧ 1 ≤ team.toNat ∧ team.toNat ≤ 16
    let others := s.clt.entries.filter fun e => e.team != team.toNat
    let own : Bool := desk.toNat == s.suu.identity.desk
    let givesUp : Bool := !own && team.toNat == s.suu.identity.team && round.toNat == s.rng.round &&
      s.icu.record.ownClaim == .pending && (s.icu.record.claimStamp.any fun x => decide (stamp.toNat ≤ x)) &&
      holds .claim s
    let record : PressRecord :=
      if own then { s.icu.record with ownClaim := .taken, claimStamp := some stamp.toNat }
      else if givesUp then { s.icu.record with ownClaim := .none, claimStamp := none }
      else s.icu.record
    let lcu := if givesUp then lcuWithout .claim (lcuIdle s) else lcuTaken s
    ∃ (t : State) (es : List Entry), exec (.claimTaken desk round stamp team) s = .next t ∧ Received f s t ∧
      (¬accepted → es = s.clt.entries) ∧
      (accepted → (∀ e ∈ s.clt.entries, e.team ≠ team.toNat) →
        es =
          placeWaiting
            { team := team.toNat, desk := desk.toNat, stamp := stamp.toNat
              level := s.rng.levels.getD (team.toNat - 1) 0, status := .waiting, outcome := none, late := false
              adopted := false } s.clt.entries) ∧
      (∀ e, accepted → s.clt.entries.find? (fun e => e.team == team.toNat) = some e →
        es =
          if e.status = .waiting ∧ stamp.toNat < e.stamp then
            placeWaiting { e with stamp := stamp.toNat, desk := desk.toNat } others
          else s.clt.entries) ∧
      (let m : State := { s with lcu := lcu, clt := ⟨es⟩, icu := { s.icu with record := record } }
       Follows m t ∧ StepFrame ([.lif, .prs] ++ roundBlocks) (heardFlag f s ||| followFlags m) s t)

/-- CHOICE_TAKEN, another desk's or the own: accepted, an empty record takes it; in FIRST mode an earlier stamp does; in
CHANGE mode a later one does, or an equal one with another key; the change count rises to 255 at most; any other CHOICE
changes no choice record. The own CHOICE's key is the last taken, whatever the table does, and no key is pending unless
another content is queued (R37, R41, R42, R71, R122, R123, R124, R125, R126). A key outside 0..4, which no station sends, is
recorded as carried: the model's choice (log 23). -/
def Obligations.ChoiceTaken : Prop :=
  ∀ (desk : Desk) (round : Byte) (stamp : Triple) (key team : Byte) (s : State),
    let f : Frame := ⟨desk, round, .choice stamp key team⟩
    Takes .choice f s → 1 ≤ desk.toNat → desk.toNat ≤ 48 → TablesSound s → QueueSound s →
    let accepted := round.toNat = s.rng.round ∧ s.rng.format = .choice ∧
      (s.rng.phase = .live ∨ s.rng.phase = .closing) ∧ s.rng.armTicks / s.rng.grain ≤ stamp.toNat ∧
      1 ≤ s.rng.closePoint ∧ stamp.toNat ≤ (s.rng.closePoint - 1) / s.rng.grain ∧ 1 ≤ key.toNat ∧ key.toNat ≤ 4 ∧
      1 ≤ team.toNat ∧ team.toNat ≤ 16
    let c := s.cht.team team.toNat
    let takes := c.key = 0 ∨ s.rng.mode = .first ∧ stamp.toNat < c.stamp ∨
      s.rng.mode = .change ∧ (c.stamp < stamp.toNat ∨ stamp.toNat = c.stamp ∧ key.toNat ≠ c.key)
    let u : State := if s.lcu.tx = .slots then endAttempt .taken s else s
    ∃ t, exec (.choiceTaken desk round stamp key team) s = .next t ∧ Received f s t ∧ t.lcu = lcuIdle u ∧
      (accepted → takes →
        t.cht.records =
          s.cht.records.set (team.toNat - 1)
            { key := key.toNat, stamp := stamp.toNat, desk := desk.toNat, changes := min 255 (c.changes + 1) }) ∧
      (¬(accepted ∧ takes) → t.cht = s.cht) ∧
      (desk.toNat ≠ s.suu.identity.desk → t.icu = s.icu) ∧
      (desk.toNat = s.suu.identity.desk →
        t.icu =
          { s.icu with
            record :=
              { s.icu.record with
                lastKey := key.toNat
                pendingKey := if holds .choice u then s.icu.record.pendingKey else 0 } }) ∧
      StepFrame [.lif, .prs, .lcu, .icu, .cht] (heardFlag f s) s t

/-- TALLY_TAKEN from another desk: a page 0..3 gives its four teams the carried totals, saturated, and confirms them; a total
that differed raises SCORE_CHANGED, and DIVERGED once for the page; another page does nothing. The console's own page changes
no score: it leaves the queue, and is asked for again if it was dirty (R41, R42, R142, R153, R156, R173). That the page asked
for again is queued before the transmitter's own move is the model's choice (log 13). -/
def Obligations.TallyTaken : Prop :=
  ∀ (round page : Byte) (c1 c2 c3 c4 : Half) (s : State),
    let f : Frame := ⟨0, round, .tally page c1 c2 c3 c4⟩
    canTake f s = true → TablesSound s → ScoresSound s →
    let totals := [c1, c2, c3, c4]
    let records := s.scu.records.mapIdx fun i x =>
      if 4 * page.toNat ≤ i ∧ i < 4 * page.toNat + 4 then
        { x with total := checkOf (totals.getD (i - 4 * page.toNat) 0), unconfirmed := false }
      else x
    let differs := records.map TeamRec.total != s.scu.records.map TeamRec.total
    (s.lcu.tx ≠ .slots → s.suu.identity.desk ≠ 0 →
      ∃ t, exec (.tallyTaken 0 round page c1 c2 c3 c4) s = .next t ∧ Received f s t ∧ t.lcu = lcuIdle s ∧
        (page.toNat ≤ 3 → t.scu.records = ranked records ∧
          StepFrame [.lif, .prs, .lcu, .scu]
            (heardFlag f s ||| raisedIf differs .scoreChanged ||| raisedIf differs .diverged) s t) ∧
        (3 < page.toNat → StepFrame [.lif, .prs, .lcu] (heardFlag f s) s t)) ∧
    (∀ (g : QFrame) (p : Fin 4), QueueSound s → s.lcu.tx = .slots → s.suu.identity.desk = 0 → attempted s = some g →
      g.place = .tally p →
      let rest := s.lcu.queue.filter fun x => !x.inAttempt
      let queue := if s.cnf.dirty.contains p.val then insertFrame (fresh (.tally p none) .cnf) rest else rest
      let tx : TxState := if queue = [] then .idle else .waiting
      ∃ t, exec (.tallyTaken 0 round page c1 c2 c3 c4) s = .next t ∧ Received f s t ∧
        t.lcu =
          { s.lcu with
            queue := queue, tx := tx, history := entered [tx] s.lcu.history, domFrame := none } ∧
        t.cnf = { s.cnf with dirty := s.cnf.dirty.filter (· != p.val) } ∧
        StepFrame [.lif, .prs, .lcu, .cnf] (heardFlag f s) s t)

/-- REVEAL_TAKEN, the console's or the own: for the current round in CLOSING with a key 0..4, the correct key is set, the
records are scored against a key 1..4 in one change, unconfirmed but at the console, the round ends, and the console asks for
its four pages; any other REVEAL does nothing; the own frame leaves the queue (R41, R94, R95, R129, R130, R139, R140, R141,
R147, R148, R170, R174). That the console's own attempt ends before its pages are asked for is the model's order of the parts
of a taking (log 12). -/
def Obligations.RevealTaken : Prop :=
  ∀ (round key : Byte) (s : State),
    let f : Frame := ⟨0, round, .reveal key⟩
    Takes .reveal f s → TablesSound s → QueueSound s → ScoresSound s →
    let applies := round.toNat = s.rng.round ∧ s.rng.phase = .closing ∧ key.toNat ≤ 4
    let console := s.suu.identity.role = .console
    let marked (x : TeamRec) : TeamRec := if console then x else { x with unconfirmed := true }
    let score (c : ChoiceRec) (x : TeamRec) : TeamRec :=
      if c.key = 0 then x
      else if c.key = key.toNat then
        marked
          { x with
            total := applyDelta s.rng.noneg x.total (s.rng.v + speedBonus s.rng c.stamp)
            rights := min 255 (x.rights + 1) }
      else marked { x with total := applyDelta s.rng.noneg x.total (-s.rng.w), wrongs := min 255 (x.wrongs + 1) }
    let records := if key = 0 then s.scu.records else List.zipWith score s.cht.records s.scu.records
    ∃ t, exec (.revealTaken 0 round key) s = .next t ∧ Received f s t ∧
      (applies →
        (∃ u : State, RoundEnds { s with lcu := lcuTaken s, rng := { s.rng with correctKey := some key.toNat } } u ∧
          t.rng = u.rng ∧ t.rck = u.rck ∧ t.icu = u.icu ∧ t.lcu = if console then lcuPages u.lcu else u.lcu) ∧
        t.scu.records = ranked records ∧
        StepFrame [.lif, .prs, .lcu, .rck, .icu, .rng, .scu]
          (heardFlag f s ||| Event.roundEnded.flag |||
            raisedIf (records.map TeamRec.figures != s.scu.records.map TeamRec.figures) .scoreChanged) s t) ∧
      (¬applies → t.lcu = lcuTaken s ∧ StepFrame [.lif, .prs, .lcu] (heardFlag f s) s t)

/-- ROLL_TAKEN at a TEAM or WALL station: a JOINED station that is not muted, whose transmitter is not HALTED and whose
PRESENT place is empty hands its PRESENT with the roll's id and the three status flags; in JOINING, muted, HALTED, or with
the place occupied, it hands none and raises no TX_DROPPED. At the console, desk 0, the own ROLL leaves the queue, is not
answered, and starts the polling unless one is under way (R36, R41, R42, R191, R192, R203). That a ROLL of id 0 starts it too
is the model's choice (log 38). How the age of a start mark's edge is known at a hand-over, and that one exactly 1.0 µs old
is joined, is the model's choice (log 10). -/
def Obligations.RollTaken : Prop :=
  ∀ (round id window : Byte) (s : State),
    let f : Frame := ⟨0, round, .roll id window⟩
    (Receives f s → TablesSound s → s.suu.identity.role = .team ∨ s.suu.identity.role = .wall →
      let flags : Byte :=
        bitAt 0 (s.rng.phase == .unsynced) ||| bitAt 1 s.lcu.recovered |||
          bitAt 2 (s.scu.records.any TeamRec.unconfirmed)
      ∃ t, exec (.rollTaken 0 round id window) s = .next t ∧ Received f s t ∧
        (s.suu.startUp = .joined → s.suu.muted = false → s.lcu.tx ≠ .halted → s.lcu.tx ≠ .muted →
          frameAt .present s.lcu.queue = none →
          Queued (.present (roleCode s.suu.identity.role) (byteOf s.suu.identity.team) id flags) .prs
            { s with lcu := lcuIdle s, lif := t.lif } t ∧
          StepFrame [.lif, .prs, .lcu] (heardFlag f s) s t) ∧
        (s.suu.startUp = .joining ∨ s.suu.muted = true ∨ s.lcu.tx = .halted ∨
            s.lcu.tx ≠ .muted ∧ frameAt .present s.lcu.queue ≠ none →
          t.lcu = lcuIdle s ∧ StepFrame [.lif, .prs, .lcu] (heardFlag f s) s t)) ∧
    (canTake f s = true → TakesOwn .roll s → TablesSound s → QueueSound s → s.suu.identity.desk = 0 →
      s.suu.identity.role = .console →
      ∃ t, exec (.rollTaken 0 round id window) s = .next t ∧ Received f s t ∧ t.lcu = lcuTaken s ∧
        t.cnf =
          (if s.cnf.rollState = .polling then s.cnf
           else
            { s.cnf with
              rollState := .polling, currentRoll := some id.toNat, window := some (max 5 window.toNat), replySet := []
              windowTimer := .running (max 5 window.toNat * 10000) }) ∧
        StepFrame [.lif, .prs, .lcu, .cnf] (heardFlag f s) s t)

/-- PRESENT_TAKEN and HELLO_TAKEN, another desk's or the own: the sender's role, team and what the class alone carries; the
seated set and ranks worked out afresh; PRESENCE_CHANGED where the desk was not heard or its role or team changes; a polling
console adds the replying desk, a working console asks for its four pages at a HELLO of another desk than 0; the own frame
leaves the queue, and the own HELLO makes the station JOINED (R11, R41, R42, R155, R156, R170, R174, R188, R189, R190, R193).
That the 5 ms wait stops at an entry to JOINED that finds it running is the model's reading (log 24). -/
def Obligations.SenderDescribed : Prop :=
  ∀ (desk : Desk) (round role team : Byte) (s : State), TablesSound s → ScoresSound s → QueueSound s →
    let code := roleOfCode role.toNat
    let teamOf := if code = .team ∧ 1 ≤ team.toNat ∧ team.toNat ≤ 16 then team.toNat else 0
    let old := s.prs.entry desk.toNat
    let flag := raisedIf (!old.heard || old.role != code || old.team != teamOf) .presenceChanged
    let described (extra : PresEntry → PresEntry) (t : State) : Prop :=
      t.lif = hunted s.lif ∧
      t.prs.entries =
        (s.prs.entries.modify desk.toNat fun e =>
          extra { e with heard := true, lastRound := round.toNat, role := code, team := teamOf }) ∧
      t.prs.seated = seatedTeams t.prs.entries ∧
      t.scu.records =
        ranked (s.scu.records.mapIdx fun i x => { x with seated := t.prs.seated.contains (i + 1) })
    (∀ id flags : Byte, Takes .present ⟨desk, round, .present role team id flags⟩ s → desk ≠ 0 →
      ∃ t, exec (.presentTaken desk round role team id flags) s = .next t ∧
        described
          (fun e =>
            { e with
              lastRoll := id.toNat, unsynced := flags.getLsbD 0, recovered := flags.getLsbD 1
              unconfirmed := flags.getLsbD 2 }) t ∧
        t.lcu = lcuTaken s ∧
        t.cnf =
          (if s.suu.identity.role = .console ∧ s.cnf.rollState = .polling ∧ s.cnf.currentRoll = some id.toNat then
            { s.cnf with replySet := insertNat desk.toNat s.cnf.replySet }
           else s.cnf) ∧
        StepFrame [.lif, .prs, .lcu, .scu, .cnf] flag s t) ∧
    ∀ tag : Half, Takes .hello ⟨desk, round, .hello role team tag⟩ s →
      ∃ t, exec (.helloTaken desk round role team tag) s = .next t ∧ described (fun e => { e with tag := tag }) t ∧
        t.suu =
          (if s.lcu.tx = .slots ∧ s.suu.startUp = .joining then { s.suu with startUp := .joined, joinWait := .off }
           else s.suu) ∧
        t.lcu =
          (if s.suu.identity.role = .console ∧ desk ≠ 0 then lcuPages (lcuTaken s) else lcuTaken s) ∧
        StepFrame [.suu, .lif, .prs, .lcu, .scu] flag s t

/-- A frame that fails its sender check marks its sender heard and does nothing else. One with this desk's own number that
the station did not send has the effect its owners give it, if it passes the check, and is a duplicate: DUPLICATE, the muted
marker, MUTED with the timers stopped and the queue emptied, TX_DROPPED for a queue that was not empty, every hander told; a
HALTED transmitter stays HALTED, a JOINING station is JOINED; a station already muted raises DUPLICATE again and nothing else
comes of it (R11, R13, R14, R33, R43, R50, R188). That the duplicate check comes after the owners' effect is the model's
order of the parts of a taking (log 12). That the pending verdict kind outlasts its marker is the model's choice (log 41).
That a dropped HOST verdict's clock runs again only in the phase TURN, and that the 5 ms wait stops at an early entry to
JOINED, are the model's readings (logs 15, 24). -/
def Obligations.SenderChecks : Prop :=
  ∀ (f : Frame) (s : State),
    (Receives f s → TablesSound s → senderAllowed f.desk.toNat f.body = false →
      ∃ t, exec (takingOf f) s = .next t ∧ Received f s t ∧ t.lcu = lcuIdle s ∧
        StepFrame [.lif, .prs, .lcu] (heardFlag f s) s t) ∧
    (canTake f s = true → s.lcu.tx ≠ .slots → f.desk.toNat = s.suu.identity.desk →
      (s.suu.muted = false →
        ∃ t, exec (takingOf f) s = .next t ∧ Mutes (ownersLeft f s) s t ∧
          (TablesSound s → senderAllowed f.desk.toNat f.body = false → Mutes (onlyHeard f s) s t)) ∧
      (s.suu.muted = true →
        ∃ t, exec (takingOf f) s = .next t ∧ StepFrame [] Event.duplicate.flag (ownersLeft f s) t ∧
          (TablesSound s → senderAllowed f.desk.toNat f.body = false →
            StepFrame [] Event.duplicate.flag (onlyHeard f s) t)))

/-- The station's own frame taken from its slots leaves the queue, and an idle or waiting transmitter follows; its HELLO
makes it JOINED, its CLAIM's record TAKEN, its CHOICE's key the last taken, a console's ROLL starts the polling (R11, R13,
R41, R42, R65, R71, R191). That a ROLL of id 0 starts it too is the model's choice (log 38). -/
def Obligations.OwnFrameTaken : Prop :=
  ∀ (g : QFrame) (s : State), QueueSound s → s.lcu.tx = .slots → PlainAttempt g s →
    s.suu.startUp = .joining ∨ s.suu.startUp = .joined → s.lif.decode = .tail → s.lif.cells = cleanCells (sentBits s) →
    s.suu.identity.desk < 64 → senderAllowed s.suu.identity.desk (payloadOf g.content) = true →
    ∃ t, exec (takingOf (frameOf s g)) s = .next t ∧ frameAt g.place t.lcu.queue = none ∧
      t.lif = hunted s.lif ∧
      (t.lcu.tx = .idle ∨ t.lcu.tx = .waiting) ∧ (s.flagSet .txDropped = false → t.flagSet .txDropped = false) ∧
      (g.place = .hello → t.suu.startUp = .joined) ∧
      (∀ x m, g.content = .claim x m →
        t.icu.record.ownClaim = .taken ∧ t.icu.record.claimStamp = some x.toNat) ∧
      (∀ x k m, g.content = .choice x k m → t.icu.record.lastKey = k.toNat) ∧
      (∀ i w, g.content = .roll i w → s.suu.identity.role = .console → s.cnf.rollState = .idle →
        t.cnf.rollState = .polling ∧ t.cnf.currentRoll = some i.toNat ∧ t.cnf.window = some (max 5 w.toNat) ∧
          t.cnf.replySet = [] ∧ t.cnf.windowTimer = .running (max 5 w.toNat * 10000))

/-! ### The round's clock and timers (04, 05, 06) -/

/-- The clock's rows: a tick counts one; the arm makes READING LIVE; window end sets closed; saturation holds the clock, sets
saturated and closed, and arms a READING round; what a change of the round brings about follows at once (R55, R57, R80, R81,
R84, R92, R93). That a tick only counts is the model's choice (log 8). -/
def Obligations.RoundClockRows : Prop :=
  ∀ s : State,
    (s.rck.running = true → s.rck.count < 16777215 →
      ∃ t, exec .roundClockTick s = .next t ∧ t.rck = { count := s.rck.count + 1, running := true } ∧
        StepFrame [.rck] 0 s t) ∧
    (QueueSound s → s.rng.phase = .reading → s.rng.saturated = true ∨ s.rng.armTicks ≤ s.rck.count →
      let m : State := { s with rng := { s.rng with phase := .live } }
      ∃ t, exec .armReached s = .next t ∧ Follows m t ∧ StepFrame roundBlocks (followFlags m) s t) ∧
    (QueueSound s → s.rng.phase = .live ∨ s.rng.phase = .turn ∨ s.rng.phase = .held → s.rng.closed = false →
      s.rng.closePoint ≤ s.rck.count →
      let m : State := { s with rng := { s.rng with closed := true } }
      ∃ t, exec .windowEnd s = .next t ∧ Follows m t ∧ StepFrame roundBlocks (followFlags m) s t) ∧
    (QueueSound s → s.rck.running = true → s.rck.count = 16777215 →
      (s.rng.phase = .unsynced ∨ s.rng.phase = .ended →
        ∃ t, exec .roundClockSaturation s = .next t ∧ t.rck = { count := 16777215, running := false } ∧
          StepFrame [.rck] 0 s t) ∧
      (s.rng.phase ≠ .unsynced → s.rng.phase ≠ .ended →
        let m : State :=
          { s with
            rck := { s.rck with running := false }
            rng :=
              { s.rng with
                saturated := true, closed := true, phase := if s.rng.phase = .reading then .live else s.rng.phase } }
        ∃ t, exec .roundClockSaturation s = .next t ∧ Follows m t ∧ StepFrame roundBlocks (followFlags m) s t))

/-- The answer clock: a step counts down by one; at 0 in TURN it stops and the phase is HELD; a console then hands a TIMEOUT
VERDICT and marks it pending, AUTOMATIC (R85, R166). Step and expiry are two rows (log 25). How the age of a start mark's
edge is known at a hand-over, and that one exactly 1.0 µs old is joined, is the model's choice (log 10). -/
def Obligations.AnswerClockRows : Prop :=
  ∀ s : State,
    (s.rng.answerRunning = true → 0 < s.rng.answerClock →
      ∃ t, exec .answerClockStep s = .next t ∧ t.rng = { s.rng with answerClock := s.rng.answerClock - 1 } ∧
        StepFrame [.rng] 0 s t) ∧
    (s.rng.phase = .turn → s.rng.answerRunning = true → s.rng.answerClock = 0 →
      (s.suu.identity.role ≠ .console →
        ∃ t, exec .answerClockExpiry s = .next t ∧ t.rng = { s.rng with answerRunning := false, phase := .held } ∧
          StepFrame [.rng] 0 s t) ∧
      (∀ team, s.suu.identity.role = .console → s.suu.startUp = .joining ∨ s.suu.startUp = .joined →
        s.rng.answering = some team →
        (s.lcu.tx = .halted ∨ s.lcu.tx = .muted →
          ∃ t, exec .answerClockExpiry s = .next t ∧ t.rng = { s.rng with answerRunning := false, phase := .held } ∧
            StepFrame [.rng] Event.txDropped.flag s t) ∧
        (s.lcu.tx ≠ .halted → s.lcu.tx ≠ .muted → frameAt .verdict s.lcu.queue = none →
          ∃ t, exec .answerClockExpiry s = .next t ∧ t.rng = { s.rng with answerRunning := false, phase := .held } ∧
            Queued (.verdict (byteOf s.rng.turn) (byteOf team) .timeout none) .cnf s t ∧
            t.cnf = { s.cnf with verdictPending := some s.rng.turn, verdictKind := .automatic } ∧
            StepFrame [.rng, .lcu, .cnf] 0 s t)))

/-! ### The desk inputs (04) -/

/-- INPUT_FALLING_EDGE captures the clock or undoes a release, INPUT_RISING_EDGE undoes a press or begins a release,
RELEASE_ACCEPTED releases and ends BUZZ's hold; a held filter takes the level alone; the other four inputs stand.
PASS_HOLD_END: with the pass turn still the own team's turn, a PASS is queued; otherwise none; the hold is over and the pass
turn none either way (R36, R59, R60, R61, R67, R68). How the age of a start mark's edge is known at a hand-over, and that one
exactly 1.0 µs old is joined, is the model's choice (log 10). -/
def Obligations.InputsAndHold : Prop :=
  (∀ (d : DeskInput) (s : State),
     let i := s.icu.input d
     let works := s.suu.startUp = .joining ∨ s.suu.startUp = .joined
     let timer : Timer := .running (s.suu.identity.filterMs * 1000)
     let becomes (t : State) (x : Input) : Prop :=
       t.icu.input d = x ∧ (∀ e, e ≠ d → t.icu.input e = s.icu.input e) ∧ t.icu.record = s.icu.record ∧
         StepFrame [.icu] 0 s t
     (i.low = false →
       ∃ t, exec (.inputFallingEdge d) s = .next t ∧ t.icu.hold = s.icu.hold ∧
         (¬works → becomes t { i with low := true }) ∧
         (works → i.filter = .released →
           becomes t { low := true, filter := .pressFilter s.rck.count, timer := timer }) ∧
         (∀ x, works → i.filter = .releaseFilter x → becomes t { low := true, filter := .pressed x, timer := .off })) ∧
     (i.low = true →
       ∃ t, exec (.inputRisingEdge d) s = .next t ∧ t.icu.hold = s.icu.hold ∧
         (¬works → becomes t { i with low := false }) ∧
         (∀ c, works → i.filter = .pressFilter c →
           becomes t { low := false, filter := .released, timer := .off }) ∧
         (∀ x, works → i.filter = .pressed x →
           becomes t { low := false, filter := .releaseFilter x, timer := timer })) ∧
     (∀ x, i.filter = .releaseFilter x → i.timer.on = true →
       ∃ t, exec (.releaseAccepted d) s = .next t ∧
         t.icu.input d = { i with filter := .released, timer := .off } ∧
         (∀ e, e ≠ d → t.icu.input e = s.icu.input e) ∧
         t.icu.hold = (if d = .buzz then .off else s.icu.hold) ∧
         t.icu.record = (if d = .buzz then { s.icu.record with passTurn := none } else s.icu.record) ∧
         StepFrame [.icu] 0 s t)) ∧
  (∀ s : State, s.icu.hold.on = true →
     let passes := (s.rng.phase = .turn ∨ s.rng.phase = .held) ∧ s.rng.answering = some s.suu.identity.team ∧
       s.icu.record.passTurn = some s.rng.turn
     let idle : Icu := { s.icu with hold := .off, record := { s.icu.record with passTurn := none } }
     ∃ t, exec .passHoldEnd s = .next t ∧ t.icu = idle ∧
       (¬passes → StepFrame [.icu] 0 s t) ∧
       (passes → s.suu.identity.role = .team → s.suu.startUp = .joined → s.lcu.tx ≠ .halted → s.lcu.tx ≠ .muted →
         (frameAt .pass s.lcu.queue = none →
           Queued (.pass (byteOf s.rng.turn) (byteOf s.suu.identity.team)) .icu s t ∧
             StepFrame [.icu, .lcu] 0 s t) ∧
         (frameAt .pass s.lcu.queue ≠ none → StepFrame [.icu] 0 s t)) ∧
       (passes → s.lcu.tx = .halted ∨ s.lcu.tx = .muted →
         t.lcu = s.lcu ∧ t.pnl.flash = .running 2000000 ∧ t.flagSet .txDropped = true))

/-- PRESS_ACCEPTED of BUZZ at a judging TEAM station in a BUZZ round: the hold starts with its pass turn; before the arm it
is a jump; in time, with no own claim, no own entry and no lock, a CLAIM with its stamp is queued, PENDING; ALREADY_QUEUED
changes nothing, dropped at once is DROPPED with the flash; otherwise no frame (R58, R59, R61, R63, R64, R67). How the age of
a start mark's edge is known at a hand-over, and that one exactly 1.0 µs old is joined, is the model's choice (log 10). -/
def Obligations.BuzzPressAccepted : Prop :=
  ∀ (time : Nat) (s : State), (s.icu.input .buzz).filter = .pressFilter time → (s.icu.input .buzz).timer.on = true →
    s.suu.identity.role = .team → s.suu.startUp = .joined → s.suu.muted = false → s.rng.format = .buzz →
    s.rng.phase ≠ .unsynced →
    let judged := s.rng.phase ≠ .closing ∧ s.rng.phase ≠ .ended
    let jumps := judged ∧ time < s.rng.armTicks
    let claims := judged ∧ ¬jumps ∧ s.icu.record.jumpLockEnd ≤ time ∧ s.icu.record.ownClaim ≠ .pending ∧
      s.icu.record.ownClaim ≠ .taken ∧ (∀ e ∈ s.clt.entries, e.team ≠ s.suu.identity.team) ∧
      (s.rng.phase = .live ∨ s.rng.phase = .turn ∨ s.rng.phase = .held) ∧ time < s.rng.closePoint
    let held : PressRecord :=
      { s.icu.record with
        passTurn :=
          if (s.rng.phase = .turn ∨ s.rng.phase = .held) ∧ s.rng.answering = some s.suu.identity.team then
            some s.rng.turn
          else none }
    ∃ t, exec (.pressAccepted .buzz) s = .next t ∧
      t.icu.input .buzz = { s.icu.input .buzz with filter := .pressed (some time), timer := .off } ∧
      (∀ e, e ≠ .buzz → t.icu.input e = s.icu.input e) ∧
      t.icu.hold = .running (s.suu.identity.passHold * 100000) ∧
      (jumps →
        t.icu.record = { held with jumped := true, jumpLockEnd := s.rng.armTicks + s.rng.jumpLockTicks } ∧
          StepFrame [.icu] 0 s t) ∧
      (¬jumps → ¬claims → t.icu.record = held ∧ StepFrame [.icu] 0 s t) ∧
      (claims → s.lcu.tx ≠ .halted → s.lcu.tx ≠ .muted → frameAt .claim s.lcu.queue = none →
        t.icu.record = { held with ownClaim := .pending, claimStamp := some (time / s.rng.grain) } ∧
        Queued (.claim (BitVec.ofNat 24 (time / s.rng.grain)) (byteOf s.suu.identity.team)) .icu s t ∧
        StepFrame [.icu, .lcu] 0 s t) ∧
      (claims → s.lcu.tx = .halted ∨ s.lcu.tx = .muted →
        t.icu.record = { held with ownClaim := .dropped, claimStamp := none } ∧ t.pnl.flash = .running 2000000 ∧
          StepFrame [.icu, .pnl] Event.txDropped.flag s t) ∧
      (claims → s.lcu.tx ≠ .halted → s.lcu.tx ≠ .muted → frameAt .claim s.lcu.queue ≠ none →
        t.icu.record = held ∧ StepFrame [.icu] 0 s t)

/-- PRESS_ACCEPTED of an answer key at a judging TEAM station in a CHOICE round: a jump before the arm; in LIVE, in time and
unlocked, a FIRST press or a CHANGE to another key queues a CHOICE, or replaces the content of the one queued, and becomes
the pending key; ALREADY_QUEUED, behind a CHOICE marked for withdrawal, changes nothing; dropped at once, the key is not
pending; otherwise no frame. A press at a station that judges none, a key in a BUZZ round and BUZZ in a CHOICE round change
the input alone (R12, R58, R59, R61, R63, R69, R70). That a BUZZ press in UNSYNCED starts no hold is the model's reading (log
16), that a drop at once leaves no key pending its choice (log 36). How the age of a start mark's edge is known at a
hand-over, and that one exactly 1.0 µs old is joined, is the model's choice (log 10). -/
def Obligations.KeyPressAccepted : Prop :=
  ∀ (d : DeskInput) (time : Nat) (s : State), (s.icu.input d).filter = .pressFilter time →
    (s.icu.input d).timer.on = true →
    let judges := s.suu.identity.role = .team ∧ s.suu.startUp = .joined ∧ s.suu.muted = false ∧
      s.rng.phase ≠ .unsynced
    let only (t : State) : Prop :=
      t.icu.input d = { s.icu.input d with filter := .pressed (some time), timer := .off } ∧
        (∀ e, e ≠ d → t.icu.input e = s.icu.input e) ∧ t.icu.hold = s.icu.hold
    (¬judges ∨ s.rng.format = .buzz ∧ d ≠ .buzz ∨ s.rng.format = .choice ∧ d = .buzz →
      ∃ t, exec (.pressAccepted d) s = .next t ∧ only t ∧ t.icu.record = s.icu.record ∧ StepFrame [.icu] 0 s t) ∧
    ∀ key, judges → s.rng.format = .choice → keyNumber d = some key →
      let judged := s.rng.phase ≠ .closing ∧ s.rng.phase ≠ .ended
      let jumps := judged ∧ time < s.rng.armTicks
      let r := s.icu.record
      let chooses := judged ∧ ¬jumps ∧ r.jumpLockEnd ≤ time ∧ s.rng.phase = .live ∧ time < s.rng.closePoint ∧
        (s.rng.mode = .first ∧ r.lastKey = 0 ∧ r.pendingKey = 0 ∨
          s.rng.mode = .change ∧ (if r.pendingKey ≠ 0 then r.pendingKey else r.lastKey) ≠ key)
      let content : Content :=
        .choice (BitVec.ofNat 24 (time / s.rng.grain)) (byteOf key) (byteOf s.suu.identity.team)
      ∃ t, exec (.pressAccepted d) s = .next t ∧ only t ∧
        (jumps →
          t.icu.record = { r with jumped := true, jumpLockEnd := s.rng.armTicks + s.rng.jumpLockTicks } ∧
            StepFrame [.icu] 0 s t) ∧
        (¬jumps → ¬chooses → t.icu.record = r ∧ StepFrame [.icu] 0 s t) ∧
        (chooses → s.lcu.tx ≠ .halted → s.lcu.tx ≠ .muted → frameAt .choice s.lcu.queue = none →
          t.icu.record = { r with pendingKey := key } ∧
          Queued content .icu s t ∧
          StepFrame [.icu, .lcu] 0 s t) ∧
        (∀ f, chooses → s.lcu.tx ≠ .halted → s.lcu.tx ≠ .muted → frameAt .choice s.lcu.queue = some f →
          (f.withdrawn = false →
            t.icu.record = { r with pendingKey := key } ∧
            t.lcu =
              { s.lcu with
                queue :=
                  s.lcu.queue.map fun g =>
                    if g.place ≠ .choice then g
                    else if g.inAttempt then { g with pending := some content }
                    else { g with content := content, attempts := 0, round := none } } ∧
            StepFrame [.icu, .lcu] 0 s t) ∧
          (f.withdrawn = true → t.icu.record = r ∧ StepFrame [.icu] 0 s t)) ∧
        (chooses → s.lcu.tx = .halted ∨ s.lcu.tx = .muted →
          t.icu.record = { r with pendingKey := 0 } ∧ t.pnl.flash = .running 2000000 ∧
            StepFrame [.icu, .pnl] Event.txDropped.flag s t)

/-! ### Panel and roll window (10, 11) -/

/-- The panel's tables, at every state: lamps and display by start-up state and role; at a TEAM station the desk phase by the
first line that holds, with its lamps and display; the console's and the wall's content; the FAULT lamp by the first
condition that holds; the lamp outputs by pattern and blink base (R176, R177, R178, R179, R180, R181, R182, R183, R184, R185,
R186). The model's own: a desk that jumped shows at the arm's own instant what LIVE shows (log 8), the letters and digits of
the figures (log 17), the blink base in half-periods of FAST (log 18). -/
def Obligations.PanelTables : Prop :=
  ∀ s : State,
    let works := s.suu.startUp = .joining ∨ s.suu.startUp = .joined
    let off : PhaseLamps := ⟨.off, .off, .off⟩
    let n := s.rng.round
    let shows (d : DeskPhase) : Prop := lampsOf s = lampLine s d ∧ ShowsDeskPhase s (contentOf s) d
    (s.suu.startUp = .loading → lampsOf s = off ∧ contentOf s = ⟨.dash, .dash, .dash, .dash, false, false⟩) ∧
    (s.suu.startUp = .configFault → lampsOf s = off ∧ contentOf s = ⟨.c, .f, .blank, .blank, false, false⟩) ∧
    (works → s.suu.identity.role = .console → lampsOf s = off ∧
      (s.rng.phase = .unsynced → contentOf s = ⟨.dash, .dash, .dash, .digit 0, false, false⟩) ∧
      ∀ pk ∈ ([(.reading, 1), (.live, 2), (.turn, 3), (.held, 4), (.closing, 5), (.ended, 6)] : List (Phase × Nat)),
        s.rng.phase = pk.1 →
        contentOf s =
          { pos1 := if n < 100 then .blank else .digit (n / 100 % 10)
            pos2 := if n < 10 then .blank else .digit (n / 10 % 10)
            pos3 := .digit (n % 10), pos4 := .digit pk.2, sign := false, point := false }) ∧
    (works → s.suu.identity.role = .wall → lampsOf s = off ∧
      (s.rng.phase = .unsynced → contentOf s = ⟨.blank, .dash, .dash, .dash, false, false⟩) ∧
      (s.rng.phase ≠ .unsynced →
        contentOf s =
          { pos1 := .blank, pos2 := if n < 100 then .blank else .digit (n / 100 % 10)
            pos3 := if n < 10 then .blank else .digit (n / 10 % 10)
            pos4 := .digit (n % 10), sign := false, point := false })) ∧
    (works → s.suu.identity.role = .team →
      (s.rng.phase = .unsynced → shows .idle) ∧
      (s.rng.phase = .reading → s.icu.record.jumped = false → shows .reading) ∧
      (s.rng.phase = .reading → s.icu.record.jumped = true →
        (s.rck.count < s.icu.record.jumpLockEnd → shows .jumped) ∧
        (s.icu.record.jumpLockEnd ≤ s.rck.count → shows (if s.rng.format = .buzz then .armed else .choosing))) ∧
      (s.rng.format = .buzz → s.rng.phase ≠ .unsynced → s.rng.phase ≠ .reading → ListOrdered s.clt.entries →
        ∃ d, firstLine (buzzLines s) = some d ∧ shows d) ∧
      (s.rng.format = .choice → s.rng.phase ≠ .unsynced → s.rng.phase ≠ .reading →
        ∃ d, firstLine (choiceLines s) = some d ∧ shows d)) ∧
    (s.suu.startUp = .configFault ∨ s.suu.muted = true ∨ s.lcu.tx = .halted → faultPattern s = .on) ∧
    (s.suu.startUp ≠ .configFault → s.suu.muted = false → s.lcu.tx ≠ .halted →
      (s.pnl.flash.on = true → faultPattern s = .fast) ∧
      (s.pnl.flash.on = false → s.lcu.tx = .recovering → faultPattern s = .slow) ∧
      (s.pnl.flash.on = false → s.lcu.tx ≠ .recovering → faultPattern s = .off)) ∧
    ∀ (blink : Nat) (l : PhaseLamps) (f : Pattern),
      pinsOf blink l f = ⟨litBy blink l.turn, litBy blink l.wait, litBy blink l.lock, litBy blink f⟩ ∧
        litBy blink .off = false ∧ litBy blink .on = true ∧ (litBy blink .slow = true ↔ blink < 4) ∧
        (litBy blink .fast = true ↔ blink % 2 = 0)

/-- JUMP_LOCK_END leaves the outputs to follow; the flash ends; the blink base moves on; a display update's end sends a
changed content at once; the roll window's end makes the report of a roll unless one is still held, with ROLL_DONE (R176,
R177, R179, R184, R193). That the base's row stands for a FAST half-period, eight to a period of SLOW, is the model's choice
(log 18). -/
def Obligations.PanelAndRollTimers : Prop :=
  ∀ s : State,
    (s.icu.record.jumped = true → s.icu.record.jumpLockEnd ≤ s.rck.count →
      ∃ t, exec .jumpLockEnd s = .next t ∧ StepFrame [] 0 s t) ∧
    (s.pnl.flash.on = true →
      ∃ t, exec .droppedFrameFlashEnd s = .next t ∧ t.pnl.flash = .off ∧ t.pnl.blink = s.pnl.blink ∧
        DisplayFollows s t ∧ StepFrame [.pnl] 0 s t) ∧
    (∃ t, exec .blinkBaseHalfPeriod s = .next t ∧ t.pnl.blink = (s.pnl.blink + 1) % 8 ∧ t.pnl.flash = s.pnl.flash ∧
      DisplayFollows s t ∧ StepFrame [.pnl] 0 s t) ∧
    (s.pnl.update.on = true →
      ∃ t, exec .displayUpdateEnd s = .next t ∧ t.pnl.blink = s.pnl.blink ∧ t.pnl.flash = s.pnl.flash ∧
        t.pnl.lastSent = t.pnl.content ∧
        t.pnl.update = (if t.pnl.content = s.pnl.lastSent then .off else .running 200) ∧ StepFrame [.pnl] 0 s t) ∧
    ∀ id window, s.cnf.rollState = .polling → s.cnf.windowTimer.on = true → s.cnf.currentRoll = some id →
      s.cnf.window = some window →
      ∃ t, exec .rollWindowExpiry s = .next t ∧
        t.cnf =
          { s.cnf with
            rollState := .idle, currentRoll := none, window := none, windowTimer := .off, replySet := []
            report :=
              if s.cnf.report.valid then s.cnf.report
              else
                { valid := true, id := id, window := window, desks := s.cnf.replySet
                  count := s.cnf.replySet.length } } ∧
        StepFrame [.cnf] Event.rollDone.flag s t

/-! ### The command port (12, 13) -/

/-- Transfers: the start presents the held reply on SDO, the most significant bit of its first byte first, zeros after its
last bit; an end without a command keeps reply and count; an unknown code or a short argument list is answered UNKNOWN; NOP
keeps the held reply and is counted (R195, R196, R204). The count byte of a reply is the model's reading (log 14). -/
def Obligations.Transfers : Prop :=
  ∀ s : State,
    (s.cmp.transfer = .waitSelect →
      ∃ t, exec .transferStart s = .next t ∧ t.cmp.transfer = .shifting ∧ t.cmp.csN = false ∧
        t.cmp.sdo = some (s.cmp.heldReply.flatMap bitsOf) ∧
        (∀ (n : Nat) (b : Byte), s.cmp.heldReply[n]? = some b →
          ∀ k < 8, t.cmp.sdoBit (8 * n + k) = some (b.getLsbD (7 - k))) ∧
        (∀ n, 8 * s.cmp.heldReply.length ≤ n → t.cmp.sdoBit n = some false) ∧
        t.cmp.heldReply = s.cmp.heldReply ∧ t.cmp.count = s.cmp.count ∧
        t.cmp.mask = s.cmp.mask ∧ StepFrame [.cmp] 0 s t) ∧
    (s.cmp.transfer ≠ .waitSelect →
      ∃ t, exec .transferEndNoCommand s = .next t ∧ t.cmp.transfer = .waitSelect ∧ t.cmp.csN = true ∧ t.cmp.sdo = none ∧
        t.cmp.heldReply = s.cmp.heldReply ∧ t.cmp.count = s.cmp.count ∧ t.cmp.mask = s.cmp.mask ∧
        StepFrame [.cmp] 0 s t) ∧
    (s.cmp.transfer = .shifting →
      (∀ (code : Byte) (args : List Byte), isUnknown code args = true →
        ∃ t, exec (.unknownCommand code args) s = .next t ∧ OnlyReplied code .unknown [] s t) ∧
      ∃ t, exec .nop s = .next t ∧ t.cmp.transfer = .waitSelect ∧ t.cmp.csN = true ∧ t.cmp.sdo = none ∧
        t.cmp.heldReply = s.cmp.heldReply ∧ t.cmp.count = s.cmp.count + 1 ∧ t.cmp.mask = s.cmp.mask ∧
        StepFrame [.cmp] 0 s t)

/-- STATUS answers with sixty bytes: identity with the options in their row layouts, markers, transmitter and places, round
context, clock; bits that the layout does not name are left open (R198, R204). The count byte, the code of role NONE and the
option bytes are the model's reading (logs 14, 19, 30). That the pending verdict kind stands as it last was while no verdict
is pending is the model's choice (log 41). -/
def Obligations.StatusRead : Prop :=
  ∀ s : State, s.cmp.transfer = .shifting → QueueSound s → BoundsSound s →
    ∃ (t : State) (body : List Byte), exec .status s = .next t ∧ OnlyReplied 0x01 .ok body s t ∧ body.length = 60 ∧
      (let i := s.suu.identity
       body.take 5 = [roleCode i.role, byteOf i.desk, byteOf i.team] ++ bytes2 i.tag ∧
        (∃ b : Byte, body[5]? = some b ∧ b.toNat % 32 = i.passHold) ∧
        (∃ b : Byte, body[6]? = some b ∧ 2 ^ (b.toNat % 4) = i.filterMs) ∧
        (∃ b : Byte, body[7]? = some b ∧ (b.getLsbD 0 = true ↔ i.idleDisplay = .rank) ∧ b.getLsbD 1 = i.blink) ∧
        body[8]? = some (reasonCode i.reason) ∧ body[9]? = some (startUpCode s.suu.startUp)) ∧
      (∃ b : Byte, body[10]? = some b ∧ b.getLsbD 0 = s.suu.muted ∧ b.getLsbD 1 = s.sto.busy ∧
        b.getLsbD 2 = s.lcu.faultMemory.on ∧ b.getLsbD 3 = s.cnf.verdictPending.isSome ∧
        (b.getLsbD 4 = true ↔ s.cnf.verdictKind = .automatic) ∧ (b.getLsbD 5 = true ↔ s.cnf.rollState = .polling)) ∧
      (∀ k : Nat, s.cnf.verdictPending = some k → body[11]? = some (byteOf k)) ∧
      body[12]? = some (txCode (some s.lcu.tx)) ∧
      (∀ (i : Nat) (p : Place), allPlaces[i]? = some p → ∃ b : Byte, body[13 + i]? = some b ∧
        (frameAt p s.lcu.queue = none → b.getLsbD 7 = false) ∧
        ∀ f : QFrame, frameAt p s.lcu.queue = some f → b.getLsbD 7 = true ∧ b.getLsbD 6 = f.inAttempt ∧
          b.getLsbD 5 = f.withdrawn ∧ b.toNat % 8 = f.attempts) ∧
      body[27]? = some (byteOf s.rng.round) ∧ (body.drop 28).take 19 = blockBytes (blockOfRound s.rng) ∧
      (∃ b : Byte, body[47]? = some b ∧ b.toNat % 8 = phaseCode s.rng.phase ∧ b.getLsbD 6 = s.rng.saturated ∧
        b.getLsbD 7 = s.rng.closed) ∧
      (body.drop 48).take 5 =
        bytes3 (BitVec.ofNat 24 s.rng.closePoint) ++ [byteOf s.rng.turn, byteOf (s.rng.answering.getD 0)] ∧
      (∃ a b : Byte, body[53]? = some a ∧ body[54]? = some b ∧ (half a b).toNat % 8192 = s.rng.answerClock ∧
        a.getLsbD 7 = s.rng.answerRunning) ∧
      (body.drop 55).take 4 =
        (match s.rng.correctKey with
          | none => (0xFF : Byte)
          | some k => byteOf k) :: bytes3 (BitVec.ofNat 24 s.rck.count) ∧
      body[59]? = some (if s.rck.running then 1 else 0)

/-- The snapshot reads carry scores, claims, choices, presence, roll report and fault log as they stand and change nothing;
bits that a layout does not name are left open (R118, R136, R158, R194, R199, R204). The count byte and the code of a
whole-byte flag are the model's reading (logs 14, 33). -/
def Obligations.SnapshotReads : Prop :=
  ∀ s : State, s.cmp.transfer = .shifting →
    (ScoresSound s → ∃ (t : State) (body : List Byte),
      exec .readScores s = .next t ∧ OnlyReplied 0x02 .ok body s t ∧ body.length = 81 ∧
        body[0]? = some (byteOf (s.scu.records.countP TeamRec.seated)) ∧
        ∀ (i : Nat) (x : TeamRec), s.scu.records[i]? = some x →
          (body.drop (1 + 5 * i)).take 4 = bytes2 (BitVec.ofInt 16 x.total) ++ [byteOf x.rights, byteOf x.wrongs] ∧
          ∃ b : Byte, body[5 + 5 * i]? = some b ∧ b.getLsbD 7 = x.unconfirmed ∧ b.getLsbD 6 = x.seated ∧
            b.toNat % 32 = x.rank) ∧
    (ClaimsSound s → (∀ e ∈ s.clt.entries, e.level ≤ 3) → ∃ (t : State) (body : List Byte),
      exec .readClaims s = .next t ∧ OnlyReplied 0x03 .ok body s t ∧ body.length = 2 + 7 * s.clt.entries.length ∧
        body.take 2 = [byteOf s.rng.round, byteOf s.clt.entries.length] ∧
        ∀ (i : Nat) (e : Entry), s.clt.entries[i]? = some e →
          (body.drop (2 + 7 * i)).take 5 = [byteOf e.team, byteOf e.desk] ++ bytes3 (BitVec.ofNat 24 e.stamp) ∧
          (∃ b : Byte, body[7 + 7 * i]? = some b ∧ b.toNat / 32 = statusCode e.status ∧ b.toNat / 8 % 4 = e.level ∧
            b.getLsbD 1 = e.late ∧ b.getLsbD 0 = e.adopted) ∧
          ∃ b : Byte, body[8 + 7 * i]? = some b ∧
            b.toNat / 32 = (match e.outcome with
              | none => 0
              | some o => (outcomeCode o).toNat) ∧
            b.toNat % 32 = (queuePosition e.team s.clt.entries).getD 0) ∧
    (∃ t, exec .readChoices s = .next t ∧
      OnlyReplied 0x04 .ok
        ([byteOf s.rng.round, match s.rng.correctKey with
          | none => 0xFF
          | some k => byteOf k] ++
          s.cht.records.flatMap fun c =>
            [byteOf c.key] ++ bytes3 (BitVec.ofNat 24 c.stamp) ++ [byteOf c.desk, byteOf c.changes]) s t) ∧
    (TablesSound s → ∃ (t : State) (body : List Byte),
      exec .readPresence s = .next t ∧ OnlyReplied 0x05 .ok body s t ∧ body.length = 386 ∧
        (∀ team, 1 ≤ team → team ≤ 16 → ∃ a b : Byte, body[0]? = some a ∧ body[1]? = some b ∧
          ((half a b).getLsbD (team - 1) = true ↔ team ∈ s.prs.seated)) ∧
        ∀ (d : Nat) (e : PresEntry), s.prs.entries[d]? = some e →
          (∃ b : Byte, body[2 + 6 * d]? = some b ∧ b.getLsbD 7 = e.heard ∧ b.toNat / 32 % 4 = (roleCode e.role).toNat ∧
            b.getLsbD 0 = e.unsynced ∧ b.getLsbD 1 = e.recovered ∧ b.getLsbD 2 = e.unconfirmed) ∧
          (body.drop (3 + 6 * d)).take 5 = byteOf e.team :: (bytes2 e.tag ++ [byteOf e.lastRound, byteOf e.lastRoll])) ∧
    (∃ (t : State) (body : List Byte), exec .readRollReport s = .next t ∧ OnlyReplied 0x06 .ok body s t ∧
      body.length = 22 ∧
      body.take 4 =
        [if s.cnf.report.valid then 1 else 0, byteOf s.cnf.report.id, byteOf s.cnf.report.window,
         byteOf s.cnf.report.count] ∧
      body[12]? = some (if s.cnf.rollState = .polling then 1 else 0) ∧
      (∀ id, s.cnf.currentRoll = some id → body[13]? = some (byteOf id)) ∧
      ∀ d < 64,
        (∃ b : Byte, body[4 + d / 8]? = some b ∧ (b.getLsbD (7 - d % 8) = true ↔ d ∈ s.cnf.report.desks)) ∧
        ∃ b : Byte, body[14 + d / 8]? = some b ∧ (b.getLsbD (7 - d % 8) = true ↔ d ∈ s.cnf.replySet)) ∧
    ∃ t, exec .readFaults s = .next t ∧
      OnlyReplied 0x07 .ok
        (byteOf s.lcu.log.length ::
          s.lcu.log.flatMap fun r =>
            [causeCode r.cause, if r.escalated then 1 else 0] ++ r.history.map txCode ++ [byteOf r.round] ++
              bytes3 (BitVec.ofNat 24 r.clock) ++ [byteOf r.cls, byteOf r.attempts]) s t

/-- CLEAR_FAULTS empties the log and says how many records it held; READ_EVENTS reports flags and mask; CLEAR_EVENTS clears
the named flags and reports them before and after; SET_EVENT_MASK sets the mask; IRQ_N is low exactly while a set flag is
enabled (R54, R199, R200, R201, R202, R204). The count byte of a reply is the model's reading (log 14), spare bits are left
open (log 11). -/
def Obligations.EventsAndFaultLog : Prop :=
  ∀ s : State, s.cmp.transfer = .shifting →
    (∃ t, exec .clearFaults s = .next t ∧ Replied 0x08 .ok [byteOf s.lcu.log.length] s t ∧
      t.lcu = { s.lcu with log := [] } ∧ StepFrame [.cmp, .free, .lcu] 0 s t) ∧
    (∃ (t : State) (a b c d : Byte), exec .readEvents s = .next t ∧ OnlyReplied 0x09 .ok [a, b, c, d] s t ∧
      (half a b).truncate 14 = s.cmp.flags ∧ (half c d).truncate 14 = s.cmp.mask) ∧
    (∀ named : Half, ∃ (t : State) (a b c d : Byte), exec (.clearEvents named) s = .next t ∧
      Replied 0x0A .ok [a, b, c, d] s t ∧ (half a b).truncate 14 = s.cmp.flags ∧ (half c d).truncate 14 = t.cmp.flags ∧
      t.cmp.flags = s.cmp.flags &&& ~~~(named.truncate 14) ∧
      (∀ x, x ∉ [Block.cmp, .free] → x.same s t) ∧ t.pending = s.pending ∧ OutputsAgree t) ∧
    (∀ named : Half, ∃ (t : State) (a b : Byte), exec (.setEventMask named) s = .next t ∧
      t.cmp.mask = named.truncate 14 ∧ (half a b).truncate 14 = t.cmp.mask ∧ t.cmp.transfer = .waitSelect ∧
      t.cmp.count = s.cmp.count + 1 ∧
      t.cmp.heldReply = [0x00, 0x07, 0x0B, ReplyCode.ok.code, s.cmp.count + 1, a, b] ∧
      (t.cmp.irqN = true ↔ ∀ e : Event, ¬(t.flagSet e = true ∧ t.cmp.mask.getLsbD e.bit = true)) ∧
      StepFrame [.cmp, .free] 0 s t)

/-! ### The console (09, 11) -/

/-- A console command that hands one frame: QUEUED answers OK with line outcome 0, an occupied place PENDING, a shut
transmitter OK with line outcome 1 and TX_DROPPED; each command with the phases and checks it needs, in their order, and what
it numbers, clamps, marks or stops (R36, R75, R86, R159, R160, R161, R162, R163, R165, R191). `queued` and `dropped` say what
the console function keeps of it. The count byte of a reply is the model's reading (log 14). How the age of a start mark's
edge is known at a hand-over, and that one exactly 1.0 µs old is joined, is the model's choice (log 10). -/
def Obligations.ConsoleHandsOver : Prop :=
  ∀ s : State, s.cmp.transfer = .shifting → s.suu.identity.role = .console →
    s.suu.startUp = .joining ∨ s.suu.startUp = .joined →
    let hands (i : Instr) (code : Byte) (c : Content) (body : List Byte) (queued dropped : Cnf) (rng : Rng) : Prop :=
      (s.lcu.tx ≠ .halted → s.lcu.tx ≠ .muted → frameAt c.place s.lcu.queue = none →
        ∃ t, exec i s = .next t ∧ Replied code .ok (body ++ [0]) s t ∧ t.cnf = queued ∧ t.rng = rng ∧
          Queued c .cnf s t ∧
          StepFrame [.cmp, .free, .lcu, .cnf, .rng] 0 s t) ∧
      (s.lcu.tx ≠ .halted → s.lcu.tx ≠ .muted → frameAt c.place s.lcu.queue ≠ none →
        ∃ t, exec i s = .next t ∧ OnlyReplied code .pending [] s t) ∧
      (s.lcu.tx = .halted ∨ s.lcu.tx = .muted →
        ∃ t, exec i s = .next t ∧ Replied code .ok (body ++ [1]) s t ∧ t.cnf = dropped ∧ t.rng = s.rng ∧
          StepFrame [.cmp, .free, .cnf] Event.txDropped.flag s t)
    let refuses (i : Instr) (code : Byte) (rc : ReplyCode) : Prop :=
      ∃ t, exec i s = .next t ∧ OnlyReplied code rc [] s t
    let next (n : Nat) : Nat := if n = 255 then 1 else n + 1
    let n := next s.cnf.lastRound
    let id := next s.cnf.lastRollId
    (∀ block,
      (s.rng.phase = .unsynced ∨ s.rng.phase = .ended →
        hands (.openRound block) 0x20 (.open_ (byteOf n) (clampBlock block)) [byteOf n]
          { s.cnf with lastRound := n } { s.cnf with lastRound := n } s.rng) ∧
      (s.rng.phase ≠ .unsynced → s.rng.phase ≠ .ended → refuses (.openRound block) 0x20 .badState)) ∧
    (s.rng.phase = .reading ∨ s.rng.phase = .live ∨ s.rng.phase = .turn ∨ s.rng.phase = .held →
      hands .closeRound 0x21 (.close (BitVec.ofNat 24 s.rck.count)) [] s.cnf s.cnf s.rng) ∧
    (s.rng.phase = .unsynced ∨ s.rng.phase = .closing ∨ s.rng.phase = .ended → refuses .closeRound 0x21 .badState) ∧
    (∀ key : Byte,
      (4 < key.toNat → refuses (.revealCommand key) 0x23 .unknown) ∧
      (key.toNat ≤ 4 → s.rng.phase = .closing →
        hands (.revealCommand key) 0x23 (.reveal key) [] s.cnf s.cnf s.rng) ∧
      (key.toNat ≤ 4 → s.rng.phase ≠ .closing → refuses (.revealCommand key) 0x23 .badState)) ∧
    (∀ (outcome expected : Byte),
      (outcome.toNat ≠ 1 → outcome.toNat ≠ 2 → outcome.toNat ≠ 5 →
        refuses (.verdictCommand outcome expected) 0x22 .unknown) ∧
      ∀ o, outcomeOfCode outcome.toNat = some o → o = .right ∨ o = .wrong ∨ o = .void →
        let elsewhere := expected ≠ 0 ∧ min 16 expected.toNat ≠ s.rng.turn
        (elsewhere ∨ s.rng.phase = .held → refuses (.verdictCommand outcome expected) 0x22 .late) ∧
        (¬elsewhere → s.rng.phase ≠ .held → s.rng.phase ≠ .turn →
          refuses (.verdictCommand outcome expected) 0x22 .badState) ∧
        (¬elsewhere → s.rng.phase = .turn → s.cnf.verdictPending ≠ none →
          refuses (.verdictCommand outcome expected) 0x22 .pending) ∧
        ∀ team, ¬elsewhere → s.rng.phase = .turn → s.cnf.verdictPending = none → s.rng.answering = some team →
          hands (.verdictCommand outcome expected) 0x22 (.verdict (byteOf s.rng.turn) (byteOf team) o none) []
            { s.cnf with verdictPending := some s.rng.turn, verdictKind := .host } s.cnf
            { s.rng with answerRunning := false }) ∧
    ∀ window : Byte,
      (s.cnf.rollState = .polling → refuses (.rollCall window) 0x27 .busy) ∧
      (s.cnf.rollState = .idle →
        hands (.rollCall window) 0x27 (.roll (byteOf id) (byteOf (max 5 window.toNat))) [byteOf id]
          { s.cnf with lastRollId := id } { s.cnf with lastRollId := id } s.rng)

/-- SET_TOTAL, ADJUST, SEND_TALLY and CLEAR_ROLL_REPORT at a working console: the total written and its page asked for, all
four pages asked for one after the other, each as the one before left queue and transmitter, on an idle line too; the
report's valid flag cleared; a team outside 1..16 is UNKNOWN; every console command elsewhere is WRONG_ROLE (R36, R38, R40,
R142, R154, R156, R159, R164, R170 to R172, R174). The count byte of a reply is the model's reading (log 14). How the age of
a start mark's edge is known at a hand-over, and that one exactly 1.0 µs old is joined, is the model's choice (log 10). -/
def Obligations.ConsoleScores : Prop :=
  ∀ s : State, s.cmp.transfer = .shifting → ScoresSound s →
    (s.suu.identity.role ≠ .console ∨ s.suu.startUp = .loading ∨ s.suu.startUp = .configFault →
      ∀ (block : OpenBlock) (b c : Byte) (h : Half), ∀ ic ∈
        ([(.openRound block, 0x20), (.closeRound, 0x21), (.verdictCommand b c, 0x22), (.revealCommand b, 0x23),
          (.setTotal b h, 0x24), (.adjust b h, 0x25), (.sendTally, 0x26), (.rollCall b, 0x27),
          (.clearRollReport, 0x28)] : List (Instr × Byte)),
        ∃ t, exec ic.1 s = .next t ∧ OnlyReplied ic.2 .wrongRole [] s t) ∧
    (s.suu.identity.role = .console → s.suu.startUp = .joining ∨ s.suu.startUp = .joined →
      (∃ t, exec .clearRollReport s = .next t ∧ Replied 0x28 .ok [] s t ∧
        t.cnf = { s.cnf with report := { s.cnf.report with valid := false } } ∧ StepFrame [.cmp, .free, .cnf] 0 s t) ∧
      (∀ team : Byte, team.toNat = 0 ∨ 16 < team.toNat → ∀ h : Half,
        (∃ t, exec (.setTotal team h) s = .next t ∧ OnlyReplied 0x24 .unknown [] s t) ∧
        ∃ t, exec (.adjust team h) s = .next t ∧ OnlyReplied 0x25 .unknown [] s t) ∧
      (∀ (team : Byte) (h : Half), 1 ≤ team.toNat → team.toNat ≤ 16 →
        let x := s.scu.team team.toNat
        let sat (v : Int) : Int := max (-9999) (min 9999 v)
        let written (v : Int) : List TeamRec := ranked (s.scu.records.set (team.toNat - 1) { x with total := v })
        let page : Fin 4 := Fin.ofNat 4 ((team.toNat - 1) / 4)
        let outcome : Byte :=
          if s.lcu.tx = .halted ∨ s.lcu.tx = .muted then 3
          else match frameAt (.tally page) s.lcu.queue with
            | none => 0
            | some f => if f.inAttempt then 2 else 1
        let asked (v : Int) (t : State) : Prop := AsksPage page outcome { s with scu := ⟨written v⟩ } t.lcu t.cnf
        (∃ t, exec (.setTotal team h) s = .next t ∧ t.scu.records = written (sat h.toInt) ∧
          asked (sat h.toInt) t ∧
          Replied 0x24 .ok (team :: bytes2 (BitVec.ofInt 16 (sat h.toInt)) ++ [outcome]) s t ∧
          StepFrame [.cmp, .free, .scu, .lcu, .cnf] (raisedIf (sat h.toInt != x.total) .scoreChanged) s t) ∧
        (let sum := sat (x.total + max (-19998) (min 19998 h.toInt))
         ∃ t, exec (.adjust team h) s = .next t ∧ t.scu.records = written sum ∧ asked sum t ∧
          Replied 0x25 .ok
            (team :: bytes2 (BitVec.ofInt 16 x.total) ++ bytes2 (BitVec.ofInt 16 sum) ++ [outcome]) s t ∧
          StepFrame [.cmp, .free, .scu, .lcu, .cnf] (raisedIf (sum != x.total) .scoreChanged) s t)) ∧
      ∃ (t : State) (outcomes : List Byte), exec .sendTally s = .next t ∧ Replied 0x26 .ok outcomes s t ∧
        (∃ (l0 l1 l2 : Lcu) (c0 c1 c2 : Cnf) (o0 o1 o2 o3 : Byte), outcomes = [o0, o1, o2, o3] ∧
          AsksPage 0 o0 s l0 c0 ∧ AsksPage 1 o1 { s with lcu := l0, cnf := c0 } l1 c1 ∧
          AsksPage 2 o2 { s with lcu := l1, cnf := c1 } l2 c2 ∧
          AsksPage 3 o3 { s with lcu := l2, cnf := c2 } t.lcu t.cnf) ∧
        (∀ p : Fin 4,
          (s.lcu.tx = .halted ∨ s.lcu.tx = .muted → outcomes[p.val]? = some 3 ∧ t.lcu = s.lcu) ∧
          (s.lcu.tx ≠ .halted → s.lcu.tx ≠ .muted →
            (frameAt (.tally p) s.lcu.queue = none → outcomes[p.val]? = some 0 ∧ frameAt (.tally p) t.lcu.queue ≠ none) ∧
            (∀ f, frameAt (.tally p) s.lcu.queue = some f → f.inAttempt = false → s.lif.idleSeen = false →
              outcomes[p.val]? = some 1) ∧
            (∀ f, frameAt (.tally p) s.lcu.queue = some f → f.inAttempt = true →
              outcomes[p.val]? = some 2 ∧ t.cnf.dirty.contains p.val = true))) ∧
        StepFrame [.cmp, .free, .lcu, .cnf] 0 s t)
end

