-- ==== Sys2Proof/Laws/State.lean ====
section
/-! SUPPORT. One lemma per field per update of the state, each true by computation. -/

namespace Sys2Proof.Machine

@[simp] theorem State.withSuu_suu (s : State) (x) : (s.withSuu x).suu = x := rfl
@[simp] theorem State.withSuu_sto (s : State) (x) : (s.withSuu x).sto = s.sto := rfl
@[simp] theorem State.withSuu_lif (s : State) (x) : (s.withSuu x).lif = s.lif := rfl
@[simp] theorem State.withSuu_lcu (s : State) (x) : (s.withSuu x).lcu = s.lcu := rfl
@[simp] theorem State.withSuu_rck (s : State) (x) : (s.withSuu x).rck = s.rck := rfl
@[simp] theorem State.withSuu_icu (s : State) (x) : (s.withSuu x).icu = s.icu := rfl
@[simp] theorem State.withSuu_rng (s : State) (x) : (s.withSuu x).rng = s.rng := rfl
@[simp] theorem State.withSuu_clt (s : State) (x) : (s.withSuu x).clt = s.clt := rfl
@[simp] theorem State.withSuu_cht (s : State) (x) : (s.withSuu x).cht = s.cht := rfl
@[simp] theorem State.withSuu_scu (s : State) (x) : (s.withSuu x).scu = s.scu := rfl
@[simp] theorem State.withSuu_cnf (s : State) (x) : (s.withSuu x).cnf = s.cnf := rfl
@[simp] theorem State.withSuu_prs (s : State) (x) : (s.withSuu x).prs = s.prs := rfl
@[simp] theorem State.withSuu_pnl (s : State) (x) : (s.withSuu x).pnl = s.pnl := rfl
@[simp] theorem State.withSuu_cmp (s : State) (x) : (s.withSuu x).cmp = s.cmp := rfl
@[simp] theorem State.withSuu_ltx (s : State) (x) : (s.withSuu x).ltx = s.ltx := rfl
@[simp] theorem State.withSuu_pending (s : State) (x) : (s.withSuu x).pending = s.pending := rfl
@[simp] theorem State.withSuu_free (s : State) (x) : (s.withSuu x).free = s.free := rfl

@[simp] theorem State.withSto_suu (s : State) (x) : (s.withSto x).suu = s.suu := rfl
@[simp] theorem State.withSto_sto (s : State) (x) : (s.withSto x).sto = x := rfl
@[simp] theorem State.withSto_lif (s : State) (x) : (s.withSto x).lif = s.lif := rfl
@[simp] theorem State.withSto_lcu (s : State) (x) : (s.withSto x).lcu = s.lcu := rfl
@[simp] theorem State.withSto_rck (s : State) (x) : (s.withSto x).rck = s.rck := rfl
@[simp] theorem State.withSto_icu (s : State) (x) : (s.withSto x).icu = s.icu := rfl
@[simp] theorem State.withSto_rng (s : State) (x) : (s.withSto x).rng = s.rng := rfl
@[simp] theorem State.withSto_clt (s : State) (x) : (s.withSto x).clt = s.clt := rfl
@[simp] theorem State.withSto_cht (s : State) (x) : (s.withSto x).cht = s.cht := rfl
@[simp] theorem State.withSto_scu (s : State) (x) : (s.withSto x).scu = s.scu := rfl
@[simp] theorem State.withSto_cnf (s : State) (x) : (s.withSto x).cnf = s.cnf := rfl
@[simp] theorem State.withSto_prs (s : State) (x) : (s.withSto x).prs = s.prs := rfl
@[simp] theorem State.withSto_pnl (s : State) (x) : (s.withSto x).pnl = s.pnl := rfl
@[simp] theorem State.withSto_cmp (s : State) (x) : (s.withSto x).cmp = s.cmp := rfl
@[simp] theorem State.withSto_ltx (s : State) (x) : (s.withSto x).ltx = s.ltx := rfl
@[simp] theorem State.withSto_pending (s : State) (x) : (s.withSto x).pending = s.pending := rfl
@[simp] theorem State.withSto_free (s : State) (x) : (s.withSto x).free = s.free := rfl

@[simp] theorem State.withLif_suu (s : State) (x) : (s.withLif x).suu = s.suu := rfl
@[simp] theorem State.withLif_sto (s : State) (x) : (s.withLif x).sto = s.sto := rfl
@[simp] theorem State.withLif_lif (s : State) (x) : (s.withLif x).lif = x := rfl
@[simp] theorem State.withLif_lcu (s : State) (x) : (s.withLif x).lcu = s.lcu := rfl
@[simp] theorem State.withLif_rck (s : State) (x) : (s.withLif x).rck = s.rck := rfl
@[simp] theorem State.withLif_icu (s : State) (x) : (s.withLif x).icu = s.icu := rfl
@[simp] theorem State.withLif_rng (s : State) (x) : (s.withLif x).rng = s.rng := rfl
@[simp] theorem State.withLif_clt (s : State) (x) : (s.withLif x).clt = s.clt := rfl
@[simp] theorem State.withLif_cht (s : State) (x) : (s.withLif x).cht = s.cht := rfl
@[simp] theorem State.withLif_scu (s : State) (x) : (s.withLif x).scu = s.scu := rfl
@[simp] theorem State.withLif_cnf (s : State) (x) : (s.withLif x).cnf = s.cnf := rfl
@[simp] theorem State.withLif_prs (s : State) (x) : (s.withLif x).prs = s.prs := rfl
@[simp] theorem State.withLif_pnl (s : State) (x) : (s.withLif x).pnl = s.pnl := rfl
@[simp] theorem State.withLif_cmp (s : State) (x) : (s.withLif x).cmp = s.cmp := rfl
@[simp] theorem State.withLif_ltx (s : State) (x) : (s.withLif x).ltx = s.ltx := rfl
@[simp] theorem State.withLif_pending (s : State) (x) : (s.withLif x).pending = s.pending := rfl
@[simp] theorem State.withLif_free (s : State) (x) : (s.withLif x).free = s.free := rfl

@[simp] theorem State.withLcu_suu (s : State) (x) : (s.withLcu x).suu = s.suu := rfl
@[simp] theorem State.withLcu_sto (s : State) (x) : (s.withLcu x).sto = s.sto := rfl
@[simp] theorem State.withLcu_lif (s : State) (x) : (s.withLcu x).lif = s.lif := rfl
@[simp] theorem State.withLcu_lcu (s : State) (x) : (s.withLcu x).lcu = x := rfl
@[simp] theorem State.withLcu_rck (s : State) (x) : (s.withLcu x).rck = s.rck := rfl
@[simp] theorem State.withLcu_icu (s : State) (x) : (s.withLcu x).icu = s.icu := rfl
@[simp] theorem State.withLcu_rng (s : State) (x) : (s.withLcu x).rng = s.rng := rfl
@[simp] theorem State.withLcu_clt (s : State) (x) : (s.withLcu x).clt = s.clt := rfl
@[simp] theorem State.withLcu_cht (s : State) (x) : (s.withLcu x).cht = s.cht := rfl
@[simp] theorem State.withLcu_scu (s : State) (x) : (s.withLcu x).scu = s.scu := rfl
@[simp] theorem State.withLcu_cnf (s : State) (x) : (s.withLcu x).cnf = s.cnf := rfl
@[simp] theorem State.withLcu_prs (s : State) (x) : (s.withLcu x).prs = s.prs := rfl
@[simp] theorem State.withLcu_pnl (s : State) (x) : (s.withLcu x).pnl = s.pnl := rfl
@[simp] theorem State.withLcu_cmp (s : State) (x) : (s.withLcu x).cmp = s.cmp := rfl
@[simp] theorem State.withLcu_ltx (s : State) (x) : (s.withLcu x).ltx = s.ltx := rfl
@[simp] theorem State.withLcu_pending (s : State) (x) : (s.withLcu x).pending = s.pending := rfl
@[simp] theorem State.withLcu_free (s : State) (x) : (s.withLcu x).free = s.free := rfl

@[simp] theorem State.withRck_suu (s : State) (x) : (s.withRck x).suu = s.suu := rfl
@[simp] theorem State.withRck_sto (s : State) (x) : (s.withRck x).sto = s.sto := rfl
@[simp] theorem State.withRck_lif (s : State) (x) : (s.withRck x).lif = s.lif := rfl
@[simp] theorem State.withRck_lcu (s : State) (x) : (s.withRck x).lcu = s.lcu := rfl
@[simp] theorem State.withRck_rck (s : State) (x) : (s.withRck x).rck = x := rfl
@[simp] theorem State.withRck_icu (s : State) (x) : (s.withRck x).icu = s.icu := rfl
@[simp] theorem State.withRck_rng (s : State) (x) : (s.withRck x).rng = s.rng := rfl
@[simp] theorem State.withRck_clt (s : State) (x) : (s.withRck x).clt = s.clt := rfl
@[simp] theorem State.withRck_cht (s : State) (x) : (s.withRck x).cht = s.cht := rfl
@[simp] theorem State.withRck_scu (s : State) (x) : (s.withRck x).scu = s.scu := rfl
@[simp] theorem State.withRck_cnf (s : State) (x) : (s.withRck x).cnf = s.cnf := rfl
@[simp] theorem State.withRck_prs (s : State) (x) : (s.withRck x).prs = s.prs := rfl
@[simp] theorem State.withRck_pnl (s : State) (x) : (s.withRck x).pnl = s.pnl := rfl
@[simp] theorem State.withRck_cmp (s : State) (x) : (s.withRck x).cmp = s.cmp := rfl
@[simp] theorem State.withRck_ltx (s : State) (x) : (s.withRck x).ltx = s.ltx := rfl
@[simp] theorem State.withRck_pending (s : State) (x) : (s.withRck x).pending = s.pending := rfl
@[simp] theorem State.withRck_free (s : State) (x) : (s.withRck x).free = s.free := rfl

@[simp] theorem State.withIcu_suu (s : State) (x) : (s.withIcu x).suu = s.suu := rfl
@[simp] theorem State.withIcu_sto (s : State) (x) : (s.withIcu x).sto = s.sto := rfl
@[simp] theorem State.withIcu_lif (s : State) (x) : (s.withIcu x).lif = s.lif := rfl
@[simp] theorem State.withIcu_lcu (s : State) (x) : (s.withIcu x).lcu = s.lcu := rfl
@[simp] theorem State.withIcu_rck (s : State) (x) : (s.withIcu x).rck = s.rck := rfl
@[simp] theorem State.withIcu_icu (s : State) (x) : (s.withIcu x).icu = x := rfl
@[simp] theorem State.withIcu_rng (s : State) (x) : (s.withIcu x).rng = s.rng := rfl
@[simp] theorem State.withIcu_clt (s : State) (x) : (s.withIcu x).clt = s.clt := rfl
@[simp] theorem State.withIcu_cht (s : State) (x) : (s.withIcu x).cht = s.cht := rfl
@[simp] theorem State.withIcu_scu (s : State) (x) : (s.withIcu x).scu = s.scu := rfl
@[simp] theorem State.withIcu_cnf (s : State) (x) : (s.withIcu x).cnf = s.cnf := rfl
@[simp] theorem State.withIcu_prs (s : State) (x) : (s.withIcu x).prs = s.prs := rfl
@[simp] theorem State.withIcu_pnl (s : State) (x) : (s.withIcu x).pnl = s.pnl := rfl
@[simp] theorem State.withIcu_cmp (s : State) (x) : (s.withIcu x).cmp = s.cmp := rfl
@[simp] theorem State.withIcu_ltx (s : State) (x) : (s.withIcu x).ltx = s.ltx := rfl
@[simp] theorem State.withIcu_pending (s : State) (x) : (s.withIcu x).pending = s.pending := rfl
@[simp] theorem State.withIcu_free (s : State) (x) : (s.withIcu x).free = s.free := rfl

@[simp] theorem State.withRng_suu (s : State) (x) : (s.withRng x).suu = s.suu := rfl
@[simp] theorem State.withRng_sto (s : State) (x) : (s.withRng x).sto = s.sto := rfl
@[simp] theorem State.withRng_lif (s : State) (x) : (s.withRng x).lif = s.lif := rfl
@[simp] theorem State.withRng_lcu (s : State) (x) : (s.withRng x).lcu = s.lcu := rfl
@[simp] theorem State.withRng_rck (s : State) (x) : (s.withRng x).rck = s.rck := rfl
@[simp] theorem State.withRng_icu (s : State) (x) : (s.withRng x).icu = s.icu := rfl
@[simp] theorem State.withRng_rng (s : State) (x) : (s.withRng x).rng = x := rfl
@[simp] theorem State.withRng_clt (s : State) (x) : (s.withRng x).clt = s.clt := rfl
@[simp] theorem State.withRng_cht (s : State) (x) : (s.withRng x).cht = s.cht := rfl
@[simp] theorem State.withRng_scu (s : State) (x) : (s.withRng x).scu = s.scu := rfl
@[simp] theorem State.withRng_cnf (s : State) (x) : (s.withRng x).cnf = s.cnf := rfl
@[simp] theorem State.withRng_prs (s : State) (x) : (s.withRng x).prs = s.prs := rfl
@[simp] theorem State.withRng_pnl (s : State) (x) : (s.withRng x).pnl = s.pnl := rfl
@[simp] theorem State.withRng_cmp (s : State) (x) : (s.withRng x).cmp = s.cmp := rfl
@[simp] theorem State.withRng_ltx (s : State) (x) : (s.withRng x).ltx = s.ltx := rfl
@[simp] theorem State.withRng_pending (s : State) (x) : (s.withRng x).pending = s.pending := rfl
@[simp] theorem State.withRng_free (s : State) (x) : (s.withRng x).free = s.free := rfl

@[simp] theorem State.withClt_suu (s : State) (x) : (s.withClt x).suu = s.suu := rfl
@[simp] theorem State.withClt_sto (s : State) (x) : (s.withClt x).sto = s.sto := rfl
@[simp] theorem State.withClt_lif (s : State) (x) : (s.withClt x).lif = s.lif := rfl
@[simp] theorem State.withClt_lcu (s : State) (x) : (s.withClt x).lcu = s.lcu := rfl
@[simp] theorem State.withClt_rck (s : State) (x) : (s.withClt x).rck = s.rck := rfl
@[simp] theorem State.withClt_icu (s : State) (x) : (s.withClt x).icu = s.icu := rfl
@[simp] theorem State.withClt_rng (s : State) (x) : (s.withClt x).rng = s.rng := rfl
@[simp] theorem State.withClt_clt (s : State) (x) : (s.withClt x).clt = x := rfl
@[simp] theorem State.withClt_cht (s : State) (x) : (s.withClt x).cht = s.cht := rfl
@[simp] theorem State.withClt_scu (s : State) (x) : (s.withClt x).scu = s.scu := rfl
@[simp] theorem State.withClt_cnf (s : State) (x) : (s.withClt x).cnf = s.cnf := rfl
@[simp] theorem State.withClt_prs (s : State) (x) : (s.withClt x).prs = s.prs := rfl
@[simp] theorem State.withClt_pnl (s : State) (x) : (s.withClt x).pnl = s.pnl := rfl
@[simp] theorem State.withClt_cmp (s : State) (x) : (s.withClt x).cmp = s.cmp := rfl
@[simp] theorem State.withClt_ltx (s : State) (x) : (s.withClt x).ltx = s.ltx := rfl
@[simp] theorem State.withClt_pending (s : State) (x) : (s.withClt x).pending = s.pending := rfl
@[simp] theorem State.withClt_free (s : State) (x) : (s.withClt x).free = s.free := rfl

@[simp] theorem State.withCht_suu (s : State) (x) : (s.withCht x).suu = s.suu := rfl
@[simp] theorem State.withCht_sto (s : State) (x) : (s.withCht x).sto = s.sto := rfl
@[simp] theorem State.withCht_lif (s : State) (x) : (s.withCht x).lif = s.lif := rfl
@[simp] theorem State.withCht_lcu (s : State) (x) : (s.withCht x).lcu = s.lcu := rfl
@[simp] theorem State.withCht_rck (s : State) (x) : (s.withCht x).rck = s.rck := rfl
@[simp] theorem State.withCht_icu (s : State) (x) : (s.withCht x).icu = s.icu := rfl
@[simp] theorem State.withCht_rng (s : State) (x) : (s.withCht x).rng = s.rng := rfl
@[simp] theorem State.withCht_clt (s : State) (x) : (s.withCht x).clt = s.clt := rfl
@[simp] theorem State.withCht_cht (s : State) (x) : (s.withCht x).cht = x := rfl
@[simp] theorem State.withCht_scu (s : State) (x) : (s.withCht x).scu = s.scu := rfl
@[simp] theorem State.withCht_cnf (s : State) (x) : (s.withCht x).cnf = s.cnf := rfl
@[simp] theorem State.withCht_prs (s : State) (x) : (s.withCht x).prs = s.prs := rfl
@[simp] theorem State.withCht_pnl (s : State) (x) : (s.withCht x).pnl = s.pnl := rfl
@[simp] theorem State.withCht_cmp (s : State) (x) : (s.withCht x).cmp = s.cmp := rfl
@[simp] theorem State.withCht_ltx (s : State) (x) : (s.withCht x).ltx = s.ltx := rfl
@[simp] theorem State.withCht_pending (s : State) (x) : (s.withCht x).pending = s.pending := rfl
@[simp] theorem State.withCht_free (s : State) (x) : (s.withCht x).free = s.free := rfl

@[simp] theorem State.withScu_suu (s : State) (x) : (s.withScu x).suu = s.suu := rfl
@[simp] theorem State.withScu_sto (s : State) (x) : (s.withScu x).sto = s.sto := rfl
@[simp] theorem State.withScu_lif (s : State) (x) : (s.withScu x).lif = s.lif := rfl
@[simp] theorem State.withScu_lcu (s : State) (x) : (s.withScu x).lcu = s.lcu := rfl
@[simp] theorem State.withScu_rck (s : State) (x) : (s.withScu x).rck = s.rck := rfl
@[simp] theorem State.withScu_icu (s : State) (x) : (s.withScu x).icu = s.icu := rfl
@[simp] theorem State.withScu_rng (s : State) (x) : (s.withScu x).rng = s.rng := rfl
@[simp] theorem State.withScu_clt (s : State) (x) : (s.withScu x).clt = s.clt := rfl
@[simp] theorem State.withScu_cht (s : State) (x) : (s.withScu x).cht = s.cht := rfl
@[simp] theorem State.withScu_scu (s : State) (x) : (s.withScu x).scu = x := rfl
@[simp] theorem State.withScu_cnf (s : State) (x) : (s.withScu x).cnf = s.cnf := rfl
@[simp] theorem State.withScu_prs (s : State) (x) : (s.withScu x).prs = s.prs := rfl
@[simp] theorem State.withScu_pnl (s : State) (x) : (s.withScu x).pnl = s.pnl := rfl
@[simp] theorem State.withScu_cmp (s : State) (x) : (s.withScu x).cmp = s.cmp := rfl
@[simp] theorem State.withScu_ltx (s : State) (x) : (s.withScu x).ltx = s.ltx := rfl
@[simp] theorem State.withScu_pending (s : State) (x) : (s.withScu x).pending = s.pending := rfl
@[simp] theorem State.withScu_free (s : State) (x) : (s.withScu x).free = s.free := rfl

@[simp] theorem State.withCnf_suu (s : State) (x) : (s.withCnf x).suu = s.suu := rfl
@[simp] theorem State.withCnf_sto (s : State) (x) : (s.withCnf x).sto = s.sto := rfl
@[simp] theorem State.withCnf_lif (s : State) (x) : (s.withCnf x).lif = s.lif := rfl
@[simp] theorem State.withCnf_lcu (s : State) (x) : (s.withCnf x).lcu = s.lcu := rfl
@[simp] theorem State.withCnf_rck (s : State) (x) : (s.withCnf x).rck = s.rck := rfl
@[simp] theorem State.withCnf_icu (s : State) (x) : (s.withCnf x).icu = s.icu := rfl
@[simp] theorem State.withCnf_rng (s : State) (x) : (s.withCnf x).rng = s.rng := rfl
@[simp] theorem State.withCnf_clt (s : State) (x) : (s.withCnf x).clt = s.clt := rfl
@[simp] theorem State.withCnf_cht (s : State) (x) : (s.withCnf x).cht = s.cht := rfl
@[simp] theorem State.withCnf_scu (s : State) (x) : (s.withCnf x).scu = s.scu := rfl
@[simp] theorem State.withCnf_cnf (s : State) (x) : (s.withCnf x).cnf = x := rfl
@[simp] theorem State.withCnf_prs (s : State) (x) : (s.withCnf x).prs = s.prs := rfl
@[simp] theorem State.withCnf_pnl (s : State) (x) : (s.withCnf x).pnl = s.pnl := rfl
@[simp] theorem State.withCnf_cmp (s : State) (x) : (s.withCnf x).cmp = s.cmp := rfl
@[simp] theorem State.withCnf_ltx (s : State) (x) : (s.withCnf x).ltx = s.ltx := rfl
@[simp] theorem State.withCnf_pending (s : State) (x) : (s.withCnf x).pending = s.pending := rfl
@[simp] theorem State.withCnf_free (s : State) (x) : (s.withCnf x).free = s.free := rfl

@[simp] theorem State.withPrs_suu (s : State) (x) : (s.withPrs x).suu = s.suu := rfl
@[simp] theorem State.withPrs_sto (s : State) (x) : (s.withPrs x).sto = s.sto := rfl
@[simp] theorem State.withPrs_lif (s : State) (x) : (s.withPrs x).lif = s.lif := rfl
@[simp] theorem State.withPrs_lcu (s : State) (x) : (s.withPrs x).lcu = s.lcu := rfl
@[simp] theorem State.withPrs_rck (s : State) (x) : (s.withPrs x).rck = s.rck := rfl
@[simp] theorem State.withPrs_icu (s : State) (x) : (s.withPrs x).icu = s.icu := rfl
@[simp] theorem State.withPrs_rng (s : State) (x) : (s.withPrs x).rng = s.rng := rfl
@[simp] theorem State.withPrs_clt (s : State) (x) : (s.withPrs x).clt = s.clt := rfl
@[simp] theorem State.withPrs_cht (s : State) (x) : (s.withPrs x).cht = s.cht := rfl
@[simp] theorem State.withPrs_scu (s : State) (x) : (s.withPrs x).scu = s.scu := rfl
@[simp] theorem State.withPrs_cnf (s : State) (x) : (s.withPrs x).cnf = s.cnf := rfl
@[simp] theorem State.withPrs_prs (s : State) (x) : (s.withPrs x).prs = x := rfl
@[simp] theorem State.withPrs_pnl (s : State) (x) : (s.withPrs x).pnl = s.pnl := rfl
@[simp] theorem State.withPrs_cmp (s : State) (x) : (s.withPrs x).cmp = s.cmp := rfl
@[simp] theorem State.withPrs_ltx (s : State) (x) : (s.withPrs x).ltx = s.ltx := rfl
@[simp] theorem State.withPrs_pending (s : State) (x) : (s.withPrs x).pending = s.pending := rfl
@[simp] theorem State.withPrs_free (s : State) (x) : (s.withPrs x).free = s.free := rfl

@[simp] theorem State.withPnl_suu (s : State) (x) : (s.withPnl x).suu = s.suu := rfl
@[simp] theorem State.withPnl_sto (s : State) (x) : (s.withPnl x).sto = s.sto := rfl
@[simp] theorem State.withPnl_lif (s : State) (x) : (s.withPnl x).lif = s.lif := rfl
@[simp] theorem State.withPnl_lcu (s : State) (x) : (s.withPnl x).lcu = s.lcu := rfl
@[simp] theorem State.withPnl_rck (s : State) (x) : (s.withPnl x).rck = s.rck := rfl
@[simp] theorem State.withPnl_icu (s : State) (x) : (s.withPnl x).icu = s.icu := rfl
@[simp] theorem State.withPnl_rng (s : State) (x) : (s.withPnl x).rng = s.rng := rfl
@[simp] theorem State.withPnl_clt (s : State) (x) : (s.withPnl x).clt = s.clt := rfl
@[simp] theorem State.withPnl_cht (s : State) (x) : (s.withPnl x).cht = s.cht := rfl
@[simp] theorem State.withPnl_scu (s : State) (x) : (s.withPnl x).scu = s.scu := rfl
@[simp] theorem State.withPnl_cnf (s : State) (x) : (s.withPnl x).cnf = s.cnf := rfl
@[simp] theorem State.withPnl_prs (s : State) (x) : (s.withPnl x).prs = s.prs := rfl
@[simp] theorem State.withPnl_pnl (s : State) (x) : (s.withPnl x).pnl = x := rfl
@[simp] theorem State.withPnl_cmp (s : State) (x) : (s.withPnl x).cmp = s.cmp := rfl
@[simp] theorem State.withPnl_ltx (s : State) (x) : (s.withPnl x).ltx = s.ltx := rfl
@[simp] theorem State.withPnl_pending (s : State) (x) : (s.withPnl x).pending = s.pending := rfl
@[simp] theorem State.withPnl_free (s : State) (x) : (s.withPnl x).free = s.free := rfl

@[simp] theorem State.withCmp_suu (s : State) (x) : (s.withCmp x).suu = s.suu := rfl
@[simp] theorem State.withCmp_sto (s : State) (x) : (s.withCmp x).sto = s.sto := rfl
@[simp] theorem State.withCmp_lif (s : State) (x) : (s.withCmp x).lif = s.lif := rfl
@[simp] theorem State.withCmp_lcu (s : State) (x) : (s.withCmp x).lcu = s.lcu := rfl
@[simp] theorem State.withCmp_rck (s : State) (x) : (s.withCmp x).rck = s.rck := rfl
@[simp] theorem State.withCmp_icu (s : State) (x) : (s.withCmp x).icu = s.icu := rfl
@[simp] theorem State.withCmp_rng (s : State) (x) : (s.withCmp x).rng = s.rng := rfl
@[simp] theorem State.withCmp_clt (s : State) (x) : (s.withCmp x).clt = s.clt := rfl
@[simp] theorem State.withCmp_cht (s : State) (x) : (s.withCmp x).cht = s.cht := rfl
@[simp] theorem State.withCmp_scu (s : State) (x) : (s.withCmp x).scu = s.scu := rfl
@[simp] theorem State.withCmp_cnf (s : State) (x) : (s.withCmp x).cnf = s.cnf := rfl
@[simp] theorem State.withCmp_prs (s : State) (x) : (s.withCmp x).prs = s.prs := rfl
@[simp] theorem State.withCmp_pnl (s : State) (x) : (s.withCmp x).pnl = s.pnl := rfl
@[simp] theorem State.withCmp_cmp (s : State) (x) : (s.withCmp x).cmp = x := rfl
@[simp] theorem State.withCmp_ltx (s : State) (x) : (s.withCmp x).ltx = s.ltx := rfl
@[simp] theorem State.withCmp_pending (s : State) (x) : (s.withCmp x).pending = s.pending := rfl
@[simp] theorem State.withCmp_free (s : State) (x) : (s.withCmp x).free = s.free := rfl

@[simp] theorem State.withLtx_suu (s : State) (x) : (s.withLtx x).suu = s.suu := rfl
@[simp] theorem State.withLtx_sto (s : State) (x) : (s.withLtx x).sto = s.sto := rfl
@[simp] theorem State.withLtx_lif (s : State) (x) : (s.withLtx x).lif = s.lif := rfl
@[simp] theorem State.withLtx_lcu (s : State) (x) : (s.withLtx x).lcu = s.lcu := rfl
@[simp] theorem State.withLtx_rck (s : State) (x) : (s.withLtx x).rck = s.rck := rfl
@[simp] theorem State.withLtx_icu (s : State) (x) : (s.withLtx x).icu = s.icu := rfl
@[simp] theorem State.withLtx_rng (s : State) (x) : (s.withLtx x).rng = s.rng := rfl
@[simp] theorem State.withLtx_clt (s : State) (x) : (s.withLtx x).clt = s.clt := rfl
@[simp] theorem State.withLtx_cht (s : State) (x) : (s.withLtx x).cht = s.cht := rfl
@[simp] theorem State.withLtx_scu (s : State) (x) : (s.withLtx x).scu = s.scu := rfl
@[simp] theorem State.withLtx_cnf (s : State) (x) : (s.withLtx x).cnf = s.cnf := rfl
@[simp] theorem State.withLtx_prs (s : State) (x) : (s.withLtx x).prs = s.prs := rfl
@[simp] theorem State.withLtx_pnl (s : State) (x) : (s.withLtx x).pnl = s.pnl := rfl
@[simp] theorem State.withLtx_cmp (s : State) (x) : (s.withLtx x).cmp = s.cmp := rfl
@[simp] theorem State.withLtx_ltx (s : State) (x) : (s.withLtx x).ltx = x := rfl
@[simp] theorem State.withLtx_pending (s : State) (x) : (s.withLtx x).pending = s.pending := rfl
@[simp] theorem State.withLtx_free (s : State) (x) : (s.withLtx x).free = s.free := rfl

@[simp] theorem State.withPending_suu (s : State) (x) : (s.withPending x).suu = s.suu := rfl
@[simp] theorem State.withPending_sto (s : State) (x) : (s.withPending x).sto = s.sto := rfl
@[simp] theorem State.withPending_lif (s : State) (x) : (s.withPending x).lif = s.lif := rfl
@[simp] theorem State.withPending_lcu (s : State) (x) : (s.withPending x).lcu = s.lcu := rfl
@[simp] theorem State.withPending_rck (s : State) (x) : (s.withPending x).rck = s.rck := rfl
@[simp] theorem State.withPending_icu (s : State) (x) : (s.withPending x).icu = s.icu := rfl
@[simp] theorem State.withPending_rng (s : State) (x) : (s.withPending x).rng = s.rng := rfl
@[simp] theorem State.withPending_clt (s : State) (x) : (s.withPending x).clt = s.clt := rfl
@[simp] theorem State.withPending_cht (s : State) (x) : (s.withPending x).cht = s.cht := rfl
@[simp] theorem State.withPending_scu (s : State) (x) : (s.withPending x).scu = s.scu := rfl
@[simp] theorem State.withPending_cnf (s : State) (x) : (s.withPending x).cnf = s.cnf := rfl
@[simp] theorem State.withPending_prs (s : State) (x) : (s.withPending x).prs = s.prs := rfl
@[simp] theorem State.withPending_pnl (s : State) (x) : (s.withPending x).pnl = s.pnl := rfl
@[simp] theorem State.withPending_cmp (s : State) (x) : (s.withPending x).cmp = s.cmp := rfl
@[simp] theorem State.withPending_ltx (s : State) (x) : (s.withPending x).ltx = s.ltx := rfl
@[simp] theorem State.withPending_pending (s : State) (x) : (s.withPending x).pending = x := rfl
@[simp] theorem State.withPending_free (s : State) (x) : (s.withPending x).free = s.free := rfl

@[simp] theorem State.withFree_suu (s : State) (x) : (s.withFree x).suu = s.suu := rfl
@[simp] theorem State.withFree_sto (s : State) (x) : (s.withFree x).sto = s.sto := rfl
@[simp] theorem State.withFree_lif (s : State) (x) : (s.withFree x).lif = s.lif := rfl
@[simp] theorem State.withFree_lcu (s : State) (x) : (s.withFree x).lcu = s.lcu := rfl
@[simp] theorem State.withFree_rck (s : State) (x) : (s.withFree x).rck = s.rck := rfl
@[simp] theorem State.withFree_icu (s : State) (x) : (s.withFree x).icu = s.icu := rfl
@[simp] theorem State.withFree_rng (s : State) (x) : (s.withFree x).rng = s.rng := rfl
@[simp] theorem State.withFree_clt (s : State) (x) : (s.withFree x).clt = s.clt := rfl
@[simp] theorem State.withFree_cht (s : State) (x) : (s.withFree x).cht = s.cht := rfl
@[simp] theorem State.withFree_scu (s : State) (x) : (s.withFree x).scu = s.scu := rfl
@[simp] theorem State.withFree_cnf (s : State) (x) : (s.withFree x).cnf = s.cnf := rfl
@[simp] theorem State.withFree_prs (s : State) (x) : (s.withFree x).prs = s.prs := rfl
@[simp] theorem State.withFree_pnl (s : State) (x) : (s.withFree x).pnl = s.pnl := rfl
@[simp] theorem State.withFree_cmp (s : State) (x) : (s.withFree x).cmp = s.cmp := rfl
@[simp] theorem State.withFree_ltx (s : State) (x) : (s.withFree x).ltx = s.ltx := rfl
@[simp] theorem State.withFree_pending (s : State) (x) : (s.withFree x).pending = s.pending := rfl
@[simp] theorem State.withFree_free (s : State) (x) : (s.withFree x).free = x := rfl

end Sys2Proof.Machine
end

