-- ==== Sys2Proof/Laws/Frames.lean ====
section
/-! SUPPORT. What each shared operation leaves alone: one lemma per operation and untouched part of the state. -/

namespace Sys2Proof.Machine

/-! raise can change: cmp. -/
@[simp] theorem raise_suu (e : Event) (s : State) : (raise e s).suu = s.suu := rfl
@[simp] theorem raise_sto (e : Event) (s : State) : (raise e s).sto = s.sto := rfl
@[simp] theorem raise_lif (e : Event) (s : State) : (raise e s).lif = s.lif := rfl
@[simp] theorem raise_lcu (e : Event) (s : State) : (raise e s).lcu = s.lcu := rfl
@[simp] theorem raise_rck (e : Event) (s : State) : (raise e s).rck = s.rck := rfl
@[simp] theorem raise_icu (e : Event) (s : State) : (raise e s).icu = s.icu := rfl
@[simp] theorem raise_rng (e : Event) (s : State) : (raise e s).rng = s.rng := rfl
@[simp] theorem raise_clt (e : Event) (s : State) : (raise e s).clt = s.clt := rfl
@[simp] theorem raise_cht (e : Event) (s : State) : (raise e s).cht = s.cht := rfl
@[simp] theorem raise_scu (e : Event) (s : State) : (raise e s).scu = s.scu := rfl
@[simp] theorem raise_cnf (e : Event) (s : State) : (raise e s).cnf = s.cnf := rfl
@[simp] theorem raise_prs (e : Event) (s : State) : (raise e s).prs = s.prs := rfl
@[simp] theorem raise_pnl (e : Event) (s : State) : (raise e s).pnl = s.pnl := rfl
@[simp] theorem raise_ltx (e : Event) (s : State) : (raise e s).ltx = s.ltx := rfl
@[simp] theorem raise_pending (e : Event) (s : State) : (raise e s).pending = s.pending := rfl
@[simp] theorem raise_free (e : Event) (s : State) : (raise e s).free = s.free := rfl

/-! raiseIf can change: cmp. -/
@[simp] theorem raiseIf_suu (b : Bool) (e : Event) (s : State) : (raiseIf b e s).suu = s.suu := by unfold raiseIf; (repeat' split) <;> simp
@[simp] theorem raiseIf_sto (b : Bool) (e : Event) (s : State) : (raiseIf b e s).sto = s.sto := by unfold raiseIf; (repeat' split) <;> simp
@[simp] theorem raiseIf_lif (b : Bool) (e : Event) (s : State) : (raiseIf b e s).lif = s.lif := by unfold raiseIf; (repeat' split) <;> simp
@[simp] theorem raiseIf_lcu (b : Bool) (e : Event) (s : State) : (raiseIf b e s).lcu = s.lcu := by unfold raiseIf; (repeat' split) <;> simp
@[simp] theorem raiseIf_rck (b : Bool) (e : Event) (s : State) : (raiseIf b e s).rck = s.rck := by unfold raiseIf; (repeat' split) <;> simp
@[simp] theorem raiseIf_icu (b : Bool) (e : Event) (s : State) : (raiseIf b e s).icu = s.icu := by unfold raiseIf; (repeat' split) <;> simp
@[simp] theorem raiseIf_rng (b : Bool) (e : Event) (s : State) : (raiseIf b e s).rng = s.rng := by unfold raiseIf; (repeat' split) <;> simp
@[simp] theorem raiseIf_clt (b : Bool) (e : Event) (s : State) : (raiseIf b e s).clt = s.clt := by unfold raiseIf; (repeat' split) <;> simp
@[simp] theorem raiseIf_cht (b : Bool) (e : Event) (s : State) : (raiseIf b e s).cht = s.cht := by unfold raiseIf; (repeat' split) <;> simp
@[simp] theorem raiseIf_scu (b : Bool) (e : Event) (s : State) : (raiseIf b e s).scu = s.scu := by unfold raiseIf; (repeat' split) <;> simp
@[simp] theorem raiseIf_cnf (b : Bool) (e : Event) (s : State) : (raiseIf b e s).cnf = s.cnf := by unfold raiseIf; (repeat' split) <;> simp
@[simp] theorem raiseIf_prs (b : Bool) (e : Event) (s : State) : (raiseIf b e s).prs = s.prs := by unfold raiseIf; (repeat' split) <;> simp
@[simp] theorem raiseIf_pnl (b : Bool) (e : Event) (s : State) : (raiseIf b e s).pnl = s.pnl := by unfold raiseIf; (repeat' split) <;> simp
@[simp] theorem raiseIf_ltx (b : Bool) (e : Event) (s : State) : (raiseIf b e s).ltx = s.ltx := by unfold raiseIf; (repeat' split) <;> simp
@[simp] theorem raiseIf_pending (b : Bool) (e : Event) (s : State) : (raiseIf b e s).pending = s.pending := by unfold raiseIf; (repeat' split) <;> simp
@[simp] theorem raiseIf_free (b : Bool) (e : Event) (s : State) : (raiseIf b e s).free = s.free := by unfold raiseIf; (repeat' split) <;> simp

/-! commitScores can change: scu, cmp. -/
@[simp] theorem commitScores_suu (r : List TeamRec) (s : State) : (commitScores r s).suu = s.suu := by simp [commitScores]
@[simp] theorem commitScores_sto (r : List TeamRec) (s : State) : (commitScores r s).sto = s.sto := by simp [commitScores]
@[simp] theorem commitScores_lif (r : List TeamRec) (s : State) : (commitScores r s).lif = s.lif := by simp [commitScores]
@[simp] theorem commitScores_lcu (r : List TeamRec) (s : State) : (commitScores r s).lcu = s.lcu := by simp [commitScores]
@[simp] theorem commitScores_rck (r : List TeamRec) (s : State) : (commitScores r s).rck = s.rck := by simp [commitScores]
@[simp] theorem commitScores_icu (r : List TeamRec) (s : State) : (commitScores r s).icu = s.icu := by simp [commitScores]
@[simp] theorem commitScores_rng (r : List TeamRec) (s : State) : (commitScores r s).rng = s.rng := by simp [commitScores]
@[simp] theorem commitScores_clt (r : List TeamRec) (s : State) : (commitScores r s).clt = s.clt := by simp [commitScores]
@[simp] theorem commitScores_cht (r : List TeamRec) (s : State) : (commitScores r s).cht = s.cht := by simp [commitScores]
@[simp] theorem commitScores_cnf (r : List TeamRec) (s : State) : (commitScores r s).cnf = s.cnf := by simp [commitScores]
@[simp] theorem commitScores_prs (r : List TeamRec) (s : State) : (commitScores r s).prs = s.prs := by simp [commitScores]
@[simp] theorem commitScores_pnl (r : List TeamRec) (s : State) : (commitScores r s).pnl = s.pnl := by simp [commitScores]
@[simp] theorem commitScores_ltx (r : List TeamRec) (s : State) : (commitScores r s).ltx = s.ltx := by simp [commitScores]
@[simp] theorem commitScores_pending (r : List TeamRec) (s : State) : (commitScores r s).pending = s.pending := by simp [commitScores]
@[simp] theorem commitScores_free (r : List TeamRec) (s : State) : (commitScores r s).free = s.free := by simp [commitScores]

/-! scoreTurn can change: scu, cmp. -/
@[simp] theorem scoreTurn_suu (t m : Nat) (o : TurnOutcome) (s : State) : (scoreTurn t m o s).suu = s.suu := by simp [scoreTurn]
@[simp] theorem scoreTurn_sto (t m : Nat) (o : TurnOutcome) (s : State) : (scoreTurn t m o s).sto = s.sto := by simp [scoreTurn]
@[simp] theorem scoreTurn_lif (t m : Nat) (o : TurnOutcome) (s : State) : (scoreTurn t m o s).lif = s.lif := by simp [scoreTurn]
@[simp] theorem scoreTurn_lcu (t m : Nat) (o : TurnOutcome) (s : State) : (scoreTurn t m o s).lcu = s.lcu := by simp [scoreTurn]
@[simp] theorem scoreTurn_rck (t m : Nat) (o : TurnOutcome) (s : State) : (scoreTurn t m o s).rck = s.rck := by simp [scoreTurn]
@[simp] theorem scoreTurn_icu (t m : Nat) (o : TurnOutcome) (s : State) : (scoreTurn t m o s).icu = s.icu := by simp [scoreTurn]
@[simp] theorem scoreTurn_rng (t m : Nat) (o : TurnOutcome) (s : State) : (scoreTurn t m o s).rng = s.rng := by simp [scoreTurn]
@[simp] theorem scoreTurn_clt (t m : Nat) (o : TurnOutcome) (s : State) : (scoreTurn t m o s).clt = s.clt := by simp [scoreTurn]
@[simp] theorem scoreTurn_cht (t m : Nat) (o : TurnOutcome) (s : State) : (scoreTurn t m o s).cht = s.cht := by simp [scoreTurn]
@[simp] theorem scoreTurn_cnf (t m : Nat) (o : TurnOutcome) (s : State) : (scoreTurn t m o s).cnf = s.cnf := by simp [scoreTurn]
@[simp] theorem scoreTurn_prs (t m : Nat) (o : TurnOutcome) (s : State) : (scoreTurn t m o s).prs = s.prs := by simp [scoreTurn]
@[simp] theorem scoreTurn_pnl (t m : Nat) (o : TurnOutcome) (s : State) : (scoreTurn t m o s).pnl = s.pnl := by simp [scoreTurn]
@[simp] theorem scoreTurn_ltx (t m : Nat) (o : TurnOutcome) (s : State) : (scoreTurn t m o s).ltx = s.ltx := by simp [scoreTurn]
@[simp] theorem scoreTurn_pending (t m : Nat) (o : TurnOutcome) (s : State) : (scoreTurn t m o s).pending = s.pending := by simp [scoreTurn]
@[simp] theorem scoreTurn_free (t m : Nat) (o : TurnOutcome) (s : State) : (scoreTurn t m o s).free = s.free := by simp [scoreTurn]

/-! takeCheckTotal can change: scu, cmp. -/
@[simp] theorem takeCheckTotal_suu (m : Nat) (c : Int) (s : State) : (takeCheckTotal m c s).suu = s.suu := by unfold takeCheckTotal; (repeat' split) <;> simp
@[simp] theorem takeCheckTotal_sto (m : Nat) (c : Int) (s : State) : (takeCheckTotal m c s).sto = s.sto := by unfold takeCheckTotal; (repeat' split) <;> simp
@[simp] theorem takeCheckTotal_lif (m : Nat) (c : Int) (s : State) : (takeCheckTotal m c s).lif = s.lif := by unfold takeCheckTotal; (repeat' split) <;> simp
@[simp] theorem takeCheckTotal_lcu (m : Nat) (c : Int) (s : State) : (takeCheckTotal m c s).lcu = s.lcu := by unfold takeCheckTotal; (repeat' split) <;> simp
@[simp] theorem takeCheckTotal_rck (m : Nat) (c : Int) (s : State) : (takeCheckTotal m c s).rck = s.rck := by unfold takeCheckTotal; (repeat' split) <;> simp
@[simp] theorem takeCheckTotal_icu (m : Nat) (c : Int) (s : State) : (takeCheckTotal m c s).icu = s.icu := by unfold takeCheckTotal; (repeat' split) <;> simp
@[simp] theorem takeCheckTotal_rng (m : Nat) (c : Int) (s : State) : (takeCheckTotal m c s).rng = s.rng := by unfold takeCheckTotal; (repeat' split) <;> simp
@[simp] theorem takeCheckTotal_clt (m : Nat) (c : Int) (s : State) : (takeCheckTotal m c s).clt = s.clt := by unfold takeCheckTotal; (repeat' split) <;> simp
@[simp] theorem takeCheckTotal_cht (m : Nat) (c : Int) (s : State) : (takeCheckTotal m c s).cht = s.cht := by unfold takeCheckTotal; (repeat' split) <;> simp
@[simp] theorem takeCheckTotal_cnf (m : Nat) (c : Int) (s : State) : (takeCheckTotal m c s).cnf = s.cnf := by unfold takeCheckTotal; (repeat' split) <;> simp
@[simp] theorem takeCheckTotal_prs (m : Nat) (c : Int) (s : State) : (takeCheckTotal m c s).prs = s.prs := by unfold takeCheckTotal; (repeat' split) <;> simp
@[simp] theorem takeCheckTotal_pnl (m : Nat) (c : Int) (s : State) : (takeCheckTotal m c s).pnl = s.pnl := by unfold takeCheckTotal; (repeat' split) <;> simp
@[simp] theorem takeCheckTotal_ltx (m : Nat) (c : Int) (s : State) : (takeCheckTotal m c s).ltx = s.ltx := by unfold takeCheckTotal; (repeat' split) <;> simp
@[simp] theorem takeCheckTotal_pending (m : Nat) (c : Int) (s : State) : (takeCheckTotal m c s).pending = s.pending := by unfold takeCheckTotal; (repeat' split) <;> simp
@[simp] theorem takeCheckTotal_free (m : Nat) (c : Int) (s : State) : (takeCheckTotal m c s).free = s.free := by unfold takeCheckTotal; (repeat' split) <;> simp

/-! takePage can change: scu, cmp. -/
@[simp] theorem takePage_suu (p : Nat) (x : List Int) (s : State) : (takePage p x s).suu = s.suu := by simp [takePage]
@[simp] theorem takePage_sto (p : Nat) (x : List Int) (s : State) : (takePage p x s).sto = s.sto := by simp [takePage]
@[simp] theorem takePage_lif (p : Nat) (x : List Int) (s : State) : (takePage p x s).lif = s.lif := by simp [takePage]
@[simp] theorem takePage_lcu (p : Nat) (x : List Int) (s : State) : (takePage p x s).lcu = s.lcu := by simp [takePage]
@[simp] theorem takePage_rck (p : Nat) (x : List Int) (s : State) : (takePage p x s).rck = s.rck := by simp [takePage]
@[simp] theorem takePage_icu (p : Nat) (x : List Int) (s : State) : (takePage p x s).icu = s.icu := by simp [takePage]
@[simp] theorem takePage_rng (p : Nat) (x : List Int) (s : State) : (takePage p x s).rng = s.rng := by simp [takePage]
@[simp] theorem takePage_clt (p : Nat) (x : List Int) (s : State) : (takePage p x s).clt = s.clt := by simp [takePage]
@[simp] theorem takePage_cht (p : Nat) (x : List Int) (s : State) : (takePage p x s).cht = s.cht := by simp [takePage]
@[simp] theorem takePage_cnf (p : Nat) (x : List Int) (s : State) : (takePage p x s).cnf = s.cnf := by simp [takePage]
@[simp] theorem takePage_prs (p : Nat) (x : List Int) (s : State) : (takePage p x s).prs = s.prs := by simp [takePage]
@[simp] theorem takePage_pnl (p : Nat) (x : List Int) (s : State) : (takePage p x s).pnl = s.pnl := by simp [takePage]
@[simp] theorem takePage_ltx (p : Nat) (x : List Int) (s : State) : (takePage p x s).ltx = s.ltx := by simp [takePage]
@[simp] theorem takePage_pending (p : Nat) (x : List Int) (s : State) : (takePage p x s).pending = s.pending := by simp [takePage]
@[simp] theorem takePage_free (p : Nat) (x : List Int) (s : State) : (takePage p x s).free = s.free := by simp [takePage]

/-! scoreReveal can change: scu, cmp. -/
@[simp] theorem scoreReveal_suu (k : Nat) (s : State) : (scoreReveal k s).suu = s.suu := by simp [scoreReveal]
@[simp] theorem scoreReveal_sto (k : Nat) (s : State) : (scoreReveal k s).sto = s.sto := by simp [scoreReveal]
@[simp] theorem scoreReveal_lif (k : Nat) (s : State) : (scoreReveal k s).lif = s.lif := by simp [scoreReveal]
@[simp] theorem scoreReveal_lcu (k : Nat) (s : State) : (scoreReveal k s).lcu = s.lcu := by simp [scoreReveal]
@[simp] theorem scoreReveal_rck (k : Nat) (s : State) : (scoreReveal k s).rck = s.rck := by simp [scoreReveal]
@[simp] theorem scoreReveal_icu (k : Nat) (s : State) : (scoreReveal k s).icu = s.icu := by simp [scoreReveal]
@[simp] theorem scoreReveal_rng (k : Nat) (s : State) : (scoreReveal k s).rng = s.rng := by simp [scoreReveal]
@[simp] theorem scoreReveal_clt (k : Nat) (s : State) : (scoreReveal k s).clt = s.clt := by simp [scoreReveal]
@[simp] theorem scoreReveal_cht (k : Nat) (s : State) : (scoreReveal k s).cht = s.cht := by simp [scoreReveal]
@[simp] theorem scoreReveal_cnf (k : Nat) (s : State) : (scoreReveal k s).cnf = s.cnf := by simp [scoreReveal]
@[simp] theorem scoreReveal_prs (k : Nat) (s : State) : (scoreReveal k s).prs = s.prs := by simp [scoreReveal]
@[simp] theorem scoreReveal_pnl (k : Nat) (s : State) : (scoreReveal k s).pnl = s.pnl := by simp [scoreReveal]
@[simp] theorem scoreReveal_ltx (k : Nat) (s : State) : (scoreReveal k s).ltx = s.ltx := by simp [scoreReveal]
@[simp] theorem scoreReveal_pending (k : Nat) (s : State) : (scoreReveal k s).pending = s.pending := by simp [scoreReveal]
@[simp] theorem scoreReveal_free (k : Nat) (s : State) : (scoreReveal k s).free = s.free := by simp [scoreReveal]

/-! setTotalOp can change: scu, cmp. -/
@[simp] theorem setTotalOp_suu (m : Nat) (v : Int) (s : State) : (setTotalOp m v s).suu = s.suu := by simp [setTotalOp]
@[simp] theorem setTotalOp_sto (m : Nat) (v : Int) (s : State) : (setTotalOp m v s).sto = s.sto := by simp [setTotalOp]
@[simp] theorem setTotalOp_lif (m : Nat) (v : Int) (s : State) : (setTotalOp m v s).lif = s.lif := by simp [setTotalOp]
@[simp] theorem setTotalOp_lcu (m : Nat) (v : Int) (s : State) : (setTotalOp m v s).lcu = s.lcu := by simp [setTotalOp]
@[simp] theorem setTotalOp_rck (m : Nat) (v : Int) (s : State) : (setTotalOp m v s).rck = s.rck := by simp [setTotalOp]
@[simp] theorem setTotalOp_icu (m : Nat) (v : Int) (s : State) : (setTotalOp m v s).icu = s.icu := by simp [setTotalOp]
@[simp] theorem setTotalOp_rng (m : Nat) (v : Int) (s : State) : (setTotalOp m v s).rng = s.rng := by simp [setTotalOp]
@[simp] theorem setTotalOp_clt (m : Nat) (v : Int) (s : State) : (setTotalOp m v s).clt = s.clt := by simp [setTotalOp]
@[simp] theorem setTotalOp_cht (m : Nat) (v : Int) (s : State) : (setTotalOp m v s).cht = s.cht := by simp [setTotalOp]
@[simp] theorem setTotalOp_cnf (m : Nat) (v : Int) (s : State) : (setTotalOp m v s).cnf = s.cnf := by simp [setTotalOp]
@[simp] theorem setTotalOp_prs (m : Nat) (v : Int) (s : State) : (setTotalOp m v s).prs = s.prs := by simp [setTotalOp]
@[simp] theorem setTotalOp_pnl (m : Nat) (v : Int) (s : State) : (setTotalOp m v s).pnl = s.pnl := by simp [setTotalOp]
@[simp] theorem setTotalOp_ltx (m : Nat) (v : Int) (s : State) : (setTotalOp m v s).ltx = s.ltx := by simp [setTotalOp]
@[simp] theorem setTotalOp_pending (m : Nat) (v : Int) (s : State) : (setTotalOp m v s).pending = s.pending := by simp [setTotalOp]
@[simp] theorem setTotalOp_free (m : Nat) (v : Int) (s : State) : (setTotalOp m v s).free = s.free := by simp [setTotalOp]

/-! adjustOp can change: scu, cmp. -/
@[simp] theorem adjustOp_suu (m : Nat) (v : Int) (s : State) : (adjustOp m v s).suu = s.suu := by simp [adjustOp]
@[simp] theorem adjustOp_sto (m : Nat) (v : Int) (s : State) : (adjustOp m v s).sto = s.sto := by simp [adjustOp]
@[simp] theorem adjustOp_lif (m : Nat) (v : Int) (s : State) : (adjustOp m v s).lif = s.lif := by simp [adjustOp]
@[simp] theorem adjustOp_lcu (m : Nat) (v : Int) (s : State) : (adjustOp m v s).lcu = s.lcu := by simp [adjustOp]
@[simp] theorem adjustOp_rck (m : Nat) (v : Int) (s : State) : (adjustOp m v s).rck = s.rck := by simp [adjustOp]
@[simp] theorem adjustOp_icu (m : Nat) (v : Int) (s : State) : (adjustOp m v s).icu = s.icu := by simp [adjustOp]
@[simp] theorem adjustOp_rng (m : Nat) (v : Int) (s : State) : (adjustOp m v s).rng = s.rng := by simp [adjustOp]
@[simp] theorem adjustOp_clt (m : Nat) (v : Int) (s : State) : (adjustOp m v s).clt = s.clt := by simp [adjustOp]
@[simp] theorem adjustOp_cht (m : Nat) (v : Int) (s : State) : (adjustOp m v s).cht = s.cht := by simp [adjustOp]
@[simp] theorem adjustOp_cnf (m : Nat) (v : Int) (s : State) : (adjustOp m v s).cnf = s.cnf := by simp [adjustOp]
@[simp] theorem adjustOp_prs (m : Nat) (v : Int) (s : State) : (adjustOp m v s).prs = s.prs := by simp [adjustOp]
@[simp] theorem adjustOp_pnl (m : Nat) (v : Int) (s : State) : (adjustOp m v s).pnl = s.pnl := by simp [adjustOp]
@[simp] theorem adjustOp_ltx (m : Nat) (v : Int) (s : State) : (adjustOp m v s).ltx = s.ltx := by simp [adjustOp]
@[simp] theorem adjustOp_pending (m : Nat) (v : Int) (s : State) : (adjustOp m v s).pending = s.pending := by simp [adjustOp]
@[simp] theorem adjustOp_free (m : Nat) (v : Int) (s : State) : (adjustOp m v s).free = s.free := by simp [adjustOp]

/-! seatTeams can change: scu. -/
@[simp] theorem seatTeams_suu (x : List Nat) (s : State) : (seatTeams x s).suu = s.suu := rfl
@[simp] theorem seatTeams_sto (x : List Nat) (s : State) : (seatTeams x s).sto = s.sto := rfl
@[simp] theorem seatTeams_lif (x : List Nat) (s : State) : (seatTeams x s).lif = s.lif := rfl
@[simp] theorem seatTeams_lcu (x : List Nat) (s : State) : (seatTeams x s).lcu = s.lcu := rfl
@[simp] theorem seatTeams_rck (x : List Nat) (s : State) : (seatTeams x s).rck = s.rck := rfl
@[simp] theorem seatTeams_icu (x : List Nat) (s : State) : (seatTeams x s).icu = s.icu := rfl
@[simp] theorem seatTeams_rng (x : List Nat) (s : State) : (seatTeams x s).rng = s.rng := rfl
@[simp] theorem seatTeams_clt (x : List Nat) (s : State) : (seatTeams x s).clt = s.clt := rfl
@[simp] theorem seatTeams_cht (x : List Nat) (s : State) : (seatTeams x s).cht = s.cht := rfl
@[simp] theorem seatTeams_cnf (x : List Nat) (s : State) : (seatTeams x s).cnf = s.cnf := rfl
@[simp] theorem seatTeams_prs (x : List Nat) (s : State) : (seatTeams x s).prs = s.prs := rfl
@[simp] theorem seatTeams_pnl (x : List Nat) (s : State) : (seatTeams x s).pnl = s.pnl := rfl
@[simp] theorem seatTeams_cmp (x : List Nat) (s : State) : (seatTeams x s).cmp = s.cmp := rfl
@[simp] theorem seatTeams_ltx (x : List Nat) (s : State) : (seatTeams x s).ltx = s.ltx := rfl
@[simp] theorem seatTeams_pending (x : List Nat) (s : State) : (seatTeams x s).pending = s.pending := rfl
@[simp] theorem seatTeams_free (x : List Nat) (s : State) : (seatTeams x s).free = s.free := rfl

/-! confirmAll can change: scu. -/
@[simp] theorem confirmAll_suu (s : State) : (confirmAll s).suu = s.suu := rfl
@[simp] theorem confirmAll_sto (s : State) : (confirmAll s).sto = s.sto := rfl
@[simp] theorem confirmAll_lif (s : State) : (confirmAll s).lif = s.lif := rfl
@[simp] theorem confirmAll_lcu (s : State) : (confirmAll s).lcu = s.lcu := rfl
@[simp] theorem confirmAll_rck (s : State) : (confirmAll s).rck = s.rck := rfl
@[simp] theorem confirmAll_icu (s : State) : (confirmAll s).icu = s.icu := rfl
@[simp] theorem confirmAll_rng (s : State) : (confirmAll s).rng = s.rng := rfl
@[simp] theorem confirmAll_clt (s : State) : (confirmAll s).clt = s.clt := rfl
@[simp] theorem confirmAll_cht (s : State) : (confirmAll s).cht = s.cht := rfl
@[simp] theorem confirmAll_cnf (s : State) : (confirmAll s).cnf = s.cnf := rfl
@[simp] theorem confirmAll_prs (s : State) : (confirmAll s).prs = s.prs := rfl
@[simp] theorem confirmAll_pnl (s : State) : (confirmAll s).pnl = s.pnl := rfl
@[simp] theorem confirmAll_cmp (s : State) : (confirmAll s).cmp = s.cmp := rfl
@[simp] theorem confirmAll_ltx (s : State) : (confirmAll s).ltx = s.ltx := rfl
@[simp] theorem confirmAll_pending (s : State) : (confirmAll s).pending = s.pending := rfl
@[simp] theorem confirmAll_free (s : State) : (confirmAll s).free = s.free := rfl

/-! refresh can change: pnl, cmp, ltx. -/
@[simp] theorem refresh_suu (s : State) : (refresh s).suu = s.suu := rfl
@[simp] theorem refresh_sto (s : State) : (refresh s).sto = s.sto := rfl
@[simp] theorem refresh_lif (s : State) : (refresh s).lif = s.lif := rfl
@[simp] theorem refresh_lcu (s : State) : (refresh s).lcu = s.lcu := rfl
@[simp] theorem refresh_rck (s : State) : (refresh s).rck = s.rck := rfl
@[simp] theorem refresh_icu (s : State) : (refresh s).icu = s.icu := rfl
@[simp] theorem refresh_rng (s : State) : (refresh s).rng = s.rng := rfl
@[simp] theorem refresh_clt (s : State) : (refresh s).clt = s.clt := rfl
@[simp] theorem refresh_cht (s : State) : (refresh s).cht = s.cht := rfl
@[simp] theorem refresh_scu (s : State) : (refresh s).scu = s.scu := rfl
@[simp] theorem refresh_cnf (s : State) : (refresh s).cnf = s.cnf := rfl
@[simp] theorem refresh_prs (s : State) : (refresh s).prs = s.prs := rfl
@[simp] theorem refresh_pending (s : State) : (refresh s).pending = s.pending := rfl
@[simp] theorem refresh_free (s : State) : (refresh s).free = s.free := rfl

/-! setQueue can change: lcu. -/
@[simp] theorem setQueue_suu (q : List QFrame) (s : State) : (setQueue q s).suu = s.suu := rfl
@[simp] theorem setQueue_sto (q : List QFrame) (s : State) : (setQueue q s).sto = s.sto := rfl
@[simp] theorem setQueue_lif (q : List QFrame) (s : State) : (setQueue q s).lif = s.lif := rfl
@[simp] theorem setQueue_rck (q : List QFrame) (s : State) : (setQueue q s).rck = s.rck := rfl
@[simp] theorem setQueue_icu (q : List QFrame) (s : State) : (setQueue q s).icu = s.icu := rfl
@[simp] theorem setQueue_rng (q : List QFrame) (s : State) : (setQueue q s).rng = s.rng := rfl
@[simp] theorem setQueue_clt (q : List QFrame) (s : State) : (setQueue q s).clt = s.clt := rfl
@[simp] theorem setQueue_cht (q : List QFrame) (s : State) : (setQueue q s).cht = s.cht := rfl
@[simp] theorem setQueue_scu (q : List QFrame) (s : State) : (setQueue q s).scu = s.scu := rfl
@[simp] theorem setQueue_cnf (q : List QFrame) (s : State) : (setQueue q s).cnf = s.cnf := rfl
@[simp] theorem setQueue_prs (q : List QFrame) (s : State) : (setQueue q s).prs = s.prs := rfl
@[simp] theorem setQueue_pnl (q : List QFrame) (s : State) : (setQueue q s).pnl = s.pnl := rfl
@[simp] theorem setQueue_cmp (q : List QFrame) (s : State) : (setQueue q s).cmp = s.cmp := rfl
@[simp] theorem setQueue_ltx (q : List QFrame) (s : State) : (setQueue q s).ltx = s.ltx := rfl
@[simp] theorem setQueue_pending (q : List QFrame) (s : State) : (setQueue q s).pending = s.pending := rfl
@[simp] theorem setQueue_free (q : List QFrame) (s : State) : (setQueue q s).free = s.free := rfl

/-! enterTx can change: lcu. -/
@[simp] theorem enterTx_suu (t : TxState) (s : State) : (enterTx t s).suu = s.suu := rfl
@[simp] theorem enterTx_sto (t : TxState) (s : State) : (enterTx t s).sto = s.sto := rfl
@[simp] theorem enterTx_lif (t : TxState) (s : State) : (enterTx t s).lif = s.lif := rfl
@[simp] theorem enterTx_rck (t : TxState) (s : State) : (enterTx t s).rck = s.rck := rfl
@[simp] theorem enterTx_icu (t : TxState) (s : State) : (enterTx t s).icu = s.icu := rfl
@[simp] theorem enterTx_rng (t : TxState) (s : State) : (enterTx t s).rng = s.rng := rfl
@[simp] theorem enterTx_clt (t : TxState) (s : State) : (enterTx t s).clt = s.clt := rfl
@[simp] theorem enterTx_cht (t : TxState) (s : State) : (enterTx t s).cht = s.cht := rfl
@[simp] theorem enterTx_scu (t : TxState) (s : State) : (enterTx t s).scu = s.scu := rfl
@[simp] theorem enterTx_cnf (t : TxState) (s : State) : (enterTx t s).cnf = s.cnf := rfl
@[simp] theorem enterTx_prs (t : TxState) (s : State) : (enterTx t s).prs = s.prs := rfl
@[simp] theorem enterTx_pnl (t : TxState) (s : State) : (enterTx t s).pnl = s.pnl := rfl
@[simp] theorem enterTx_cmp (t : TxState) (s : State) : (enterTx t s).cmp = s.cmp := rfl
@[simp] theorem enterTx_ltx (t : TxState) (s : State) : (enterTx t s).ltx = s.ltx := rfl
@[simp] theorem enterTx_pending (t : TxState) (s : State) : (enterTx t s).pending = s.pending := rfl
@[simp] theorem enterTx_free (t : TxState) (s : State) : (enterTx t s).free = s.free := rfl

/-! settleTx can change: lcu. -/
@[simp] theorem settleTx_suu (s : State) : (settleTx s).suu = s.suu := rfl
@[simp] theorem settleTx_sto (s : State) : (settleTx s).sto = s.sto := rfl
@[simp] theorem settleTx_lif (s : State) : (settleTx s).lif = s.lif := rfl
@[simp] theorem settleTx_rck (s : State) : (settleTx s).rck = s.rck := rfl
@[simp] theorem settleTx_icu (s : State) : (settleTx s).icu = s.icu := rfl
@[simp] theorem settleTx_rng (s : State) : (settleTx s).rng = s.rng := rfl
@[simp] theorem settleTx_clt (s : State) : (settleTx s).clt = s.clt := rfl
@[simp] theorem settleTx_cht (s : State) : (settleTx s).cht = s.cht := rfl
@[simp] theorem settleTx_scu (s : State) : (settleTx s).scu = s.scu := rfl
@[simp] theorem settleTx_cnf (s : State) : (settleTx s).cnf = s.cnf := rfl
@[simp] theorem settleTx_prs (s : State) : (settleTx s).prs = s.prs := rfl
@[simp] theorem settleTx_pnl (s : State) : (settleTx s).pnl = s.pnl := rfl
@[simp] theorem settleTx_cmp (s : State) : (settleTx s).cmp = s.cmp := rfl
@[simp] theorem settleTx_ltx (s : State) : (settleTx s).ltx = s.ltx := rfl
@[simp] theorem settleTx_pending (s : State) : (settleTx s).pending = s.pending := rfl
@[simp] theorem settleTx_free (s : State) : (settleTx s).free = s.free := rfl

/-! offer can change: lcu. -/
@[simp] theorem offer_suu (s : State) : (offer s).suu = s.suu := by unfold offer; (repeat' split) <;> simp
@[simp] theorem offer_sto (s : State) : (offer s).sto = s.sto := by unfold offer; (repeat' split) <;> simp
@[simp] theorem offer_lif (s : State) : (offer s).lif = s.lif := by unfold offer; (repeat' split) <;> simp
@[simp] theorem offer_rck (s : State) : (offer s).rck = s.rck := by unfold offer; (repeat' split) <;> simp
@[simp] theorem offer_icu (s : State) : (offer s).icu = s.icu := by unfold offer; (repeat' split) <;> simp
@[simp] theorem offer_rng (s : State) : (offer s).rng = s.rng := by unfold offer; (repeat' split) <;> simp
@[simp] theorem offer_clt (s : State) : (offer s).clt = s.clt := by unfold offer; (repeat' split) <;> simp
@[simp] theorem offer_cht (s : State) : (offer s).cht = s.cht := by unfold offer; (repeat' split) <;> simp
@[simp] theorem offer_scu (s : State) : (offer s).scu = s.scu := by unfold offer; (repeat' split) <;> simp
@[simp] theorem offer_cnf (s : State) : (offer s).cnf = s.cnf := by unfold offer; (repeat' split) <;> simp
@[simp] theorem offer_prs (s : State) : (offer s).prs = s.prs := by unfold offer; (repeat' split) <;> simp
@[simp] theorem offer_pnl (s : State) : (offer s).pnl = s.pnl := by unfold offer; (repeat' split) <;> simp
@[simp] theorem offer_cmp (s : State) : (offer s).cmp = s.cmp := by unfold offer; (repeat' split) <;> simp
@[simp] theorem offer_ltx (s : State) : (offer s).ltx = s.ltx := by unfold offer; (repeat' split) <;> simp
@[simp] theorem offer_pending (s : State) : (offer s).pending = s.pending := by unfold offer; (repeat' split) <;> simp
@[simp] theorem offer_free (s : State) : (offer s).free = s.free := by unfold offer; (repeat' split) <;> simp

/-! wait can change: lcu. -/
@[simp] theorem wait_suu (s : State) : (wait s).suu = s.suu := by unfold wait; (repeat' split) <;> simp
@[simp] theorem wait_sto (s : State) : (wait s).sto = s.sto := by unfold wait; (repeat' split) <;> simp
@[simp] theorem wait_lif (s : State) : (wait s).lif = s.lif := by unfold wait; (repeat' split) <;> simp
@[simp] theorem wait_rck (s : State) : (wait s).rck = s.rck := by unfold wait; (repeat' split) <;> simp
@[simp] theorem wait_icu (s : State) : (wait s).icu = s.icu := by unfold wait; (repeat' split) <;> simp
@[simp] theorem wait_rng (s : State) : (wait s).rng = s.rng := by unfold wait; (repeat' split) <;> simp
@[simp] theorem wait_clt (s : State) : (wait s).clt = s.clt := by unfold wait; (repeat' split) <;> simp
@[simp] theorem wait_cht (s : State) : (wait s).cht = s.cht := by unfold wait; (repeat' split) <;> simp
@[simp] theorem wait_scu (s : State) : (wait s).scu = s.scu := by unfold wait; (repeat' split) <;> simp
@[simp] theorem wait_cnf (s : State) : (wait s).cnf = s.cnf := by unfold wait; (repeat' split) <;> simp
@[simp] theorem wait_prs (s : State) : (wait s).prs = s.prs := by unfold wait; (repeat' split) <;> simp
@[simp] theorem wait_pnl (s : State) : (wait s).pnl = s.pnl := by unfold wait; (repeat' split) <;> simp
@[simp] theorem wait_cmp (s : State) : (wait s).cmp = s.cmp := by unfold wait; (repeat' split) <;> simp
@[simp] theorem wait_ltx (s : State) : (wait s).ltx = s.ltx := by unfold wait; (repeat' split) <;> simp
@[simp] theorem wait_pending (s : State) : (wait s).pending = s.pending := by unfold wait; (repeat' split) <;> simp
@[simp] theorem wait_free (s : State) : (wait s).free = s.free := by unfold wait; (repeat' split) <;> simp

/-! startOrWait can change: lcu. -/
@[simp] theorem startOrWait_suu (s : State) : (startOrWait s).suu = s.suu := by unfold startOrWait; (repeat' split) <;> simp
@[simp] theorem startOrWait_sto (s : State) : (startOrWait s).sto = s.sto := by unfold startOrWait; (repeat' split) <;> simp
@[simp] theorem startOrWait_lif (s : State) : (startOrWait s).lif = s.lif := by unfold startOrWait; (repeat' split) <;> simp
@[simp] theorem startOrWait_rck (s : State) : (startOrWait s).rck = s.rck := by unfold startOrWait; (repeat' split) <;> simp
@[simp] theorem startOrWait_icu (s : State) : (startOrWait s).icu = s.icu := by unfold startOrWait; (repeat' split) <;> simp
@[simp] theorem startOrWait_rng (s : State) : (startOrWait s).rng = s.rng := by unfold startOrWait; (repeat' split) <;> simp
@[simp] theorem startOrWait_clt (s : State) : (startOrWait s).clt = s.clt := by unfold startOrWait; (repeat' split) <;> simp
@[simp] theorem startOrWait_cht (s : State) : (startOrWait s).cht = s.cht := by unfold startOrWait; (repeat' split) <;> simp
@[simp] theorem startOrWait_scu (s : State) : (startOrWait s).scu = s.scu := by unfold startOrWait; (repeat' split) <;> simp
@[simp] theorem startOrWait_cnf (s : State) : (startOrWait s).cnf = s.cnf := by unfold startOrWait; (repeat' split) <;> simp
@[simp] theorem startOrWait_prs (s : State) : (startOrWait s).prs = s.prs := by unfold startOrWait; (repeat' split) <;> simp
@[simp] theorem startOrWait_pnl (s : State) : (startOrWait s).pnl = s.pnl := by unfold startOrWait; (repeat' split) <;> simp
@[simp] theorem startOrWait_cmp (s : State) : (startOrWait s).cmp = s.cmp := by unfold startOrWait; (repeat' split) <;> simp
@[simp] theorem startOrWait_ltx (s : State) : (startOrWait s).ltx = s.ltx := by unfold startOrWait; (repeat' split) <;> simp
@[simp] theorem startOrWait_pending (s : State) : (startOrWait s).pending = s.pending := by unfold startOrWait; (repeat' split) <;> simp
@[simp] theorem startOrWait_free (s : State) : (startOrWait s).free = s.free := by unfold startOrWait; (repeat' split) <;> simp

/-! handOver can change: lcu, cmp. -/
@[simp] theorem handOver_suu (c : Content) (h : Hander) (s : State) : (handOver c h s).suu = s.suu := by unfold handOver; (repeat' split) <;> simp
@[simp] theorem handOver_sto (c : Content) (h : Hander) (s : State) : (handOver c h s).sto = s.sto := by unfold handOver; (repeat' split) <;> simp
@[simp] theorem handOver_lif (c : Content) (h : Hander) (s : State) : (handOver c h s).lif = s.lif := by unfold handOver; (repeat' split) <;> simp
@[simp] theorem handOver_rck (c : Content) (h : Hander) (s : State) : (handOver c h s).rck = s.rck := by unfold handOver; (repeat' split) <;> simp
@[simp] theorem handOver_icu (c : Content) (h : Hander) (s : State) : (handOver c h s).icu = s.icu := by unfold handOver; (repeat' split) <;> simp
@[simp] theorem handOver_rng (c : Content) (h : Hander) (s : State) : (handOver c h s).rng = s.rng := by unfold handOver; (repeat' split) <;> simp
@[simp] theorem handOver_clt (c : Content) (h : Hander) (s : State) : (handOver c h s).clt = s.clt := by unfold handOver; (repeat' split) <;> simp
@[simp] theorem handOver_cht (c : Content) (h : Hander) (s : State) : (handOver c h s).cht = s.cht := by unfold handOver; (repeat' split) <;> simp
@[simp] theorem handOver_scu (c : Content) (h : Hander) (s : State) : (handOver c h s).scu = s.scu := by unfold handOver; (repeat' split) <;> simp
@[simp] theorem handOver_cnf (c : Content) (h : Hander) (s : State) : (handOver c h s).cnf = s.cnf := by unfold handOver; (repeat' split) <;> simp
@[simp] theorem handOver_prs (c : Content) (h : Hander) (s : State) : (handOver c h s).prs = s.prs := by unfold handOver; (repeat' split) <;> simp
@[simp] theorem handOver_pnl (c : Content) (h : Hander) (s : State) : (handOver c h s).pnl = s.pnl := by unfold handOver; (repeat' split) <;> simp
@[simp] theorem handOver_ltx (c : Content) (h : Hander) (s : State) : (handOver c h s).ltx = s.ltx := by unfold handOver; (repeat' split) <;> simp
@[simp] theorem handOver_pending (c : Content) (h : Hander) (s : State) : (handOver c h s).pending = s.pending := by unfold handOver; (repeat' split) <;> simp
@[simp] theorem handOver_free (c : Content) (h : Hander) (s : State) : (handOver c h s).free = s.free := by unfold handOver; (repeat' split) <;> simp

/-! clearDirty can change: cnf. -/
@[simp] theorem clearDirty_suu (p : Nat) (s : State) : (clearDirty p s).suu = s.suu := rfl
@[simp] theorem clearDirty_sto (p : Nat) (s : State) : (clearDirty p s).sto = s.sto := rfl
@[simp] theorem clearDirty_lif (p : Nat) (s : State) : (clearDirty p s).lif = s.lif := rfl
@[simp] theorem clearDirty_lcu (p : Nat) (s : State) : (clearDirty p s).lcu = s.lcu := rfl
@[simp] theorem clearDirty_rck (p : Nat) (s : State) : (clearDirty p s).rck = s.rck := rfl
@[simp] theorem clearDirty_icu (p : Nat) (s : State) : (clearDirty p s).icu = s.icu := rfl
@[simp] theorem clearDirty_rng (p : Nat) (s : State) : (clearDirty p s).rng = s.rng := rfl
@[simp] theorem clearDirty_clt (p : Nat) (s : State) : (clearDirty p s).clt = s.clt := rfl
@[simp] theorem clearDirty_cht (p : Nat) (s : State) : (clearDirty p s).cht = s.cht := rfl
@[simp] theorem clearDirty_scu (p : Nat) (s : State) : (clearDirty p s).scu = s.scu := rfl
@[simp] theorem clearDirty_prs (p : Nat) (s : State) : (clearDirty p s).prs = s.prs := rfl
@[simp] theorem clearDirty_pnl (p : Nat) (s : State) : (clearDirty p s).pnl = s.pnl := rfl
@[simp] theorem clearDirty_cmp (p : Nat) (s : State) : (clearDirty p s).cmp = s.cmp := rfl
@[simp] theorem clearDirty_ltx (p : Nat) (s : State) : (clearDirty p s).ltx = s.ltx := rfl
@[simp] theorem clearDirty_pending (p : Nat) (s : State) : (clearDirty p s).pending = s.pending := rfl
@[simp] theorem clearDirty_free (p : Nat) (s : State) : (clearDirty p s).free = s.free := rfl

/-! requestPage can change: lcu, cnf, cmp. -/
@[simp] theorem requestPage_suu (p : Fin 4) (s : State) : (requestPage p s).suu = s.suu := by unfold requestPage; (repeat' split) <;> simp
@[simp] theorem requestPage_sto (p : Fin 4) (s : State) : (requestPage p s).sto = s.sto := by unfold requestPage; (repeat' split) <;> simp
@[simp] theorem requestPage_lif (p : Fin 4) (s : State) : (requestPage p s).lif = s.lif := by unfold requestPage; (repeat' split) <;> simp
@[simp] theorem requestPage_rck (p : Fin 4) (s : State) : (requestPage p s).rck = s.rck := by unfold requestPage; (repeat' split) <;> simp
@[simp] theorem requestPage_icu (p : Fin 4) (s : State) : (requestPage p s).icu = s.icu := by unfold requestPage; (repeat' split) <;> simp
@[simp] theorem requestPage_rng (p : Fin 4) (s : State) : (requestPage p s).rng = s.rng := by unfold requestPage; (repeat' split) <;> simp
@[simp] theorem requestPage_clt (p : Fin 4) (s : State) : (requestPage p s).clt = s.clt := by unfold requestPage; (repeat' split) <;> simp
@[simp] theorem requestPage_cht (p : Fin 4) (s : State) : (requestPage p s).cht = s.cht := by unfold requestPage; (repeat' split) <;> simp
@[simp] theorem requestPage_scu (p : Fin 4) (s : State) : (requestPage p s).scu = s.scu := by unfold requestPage; (repeat' split) <;> simp
@[simp] theorem requestPage_prs (p : Fin 4) (s : State) : (requestPage p s).prs = s.prs := by unfold requestPage; (repeat' split) <;> simp
@[simp] theorem requestPage_pnl (p : Fin 4) (s : State) : (requestPage p s).pnl = s.pnl := by unfold requestPage; (repeat' split) <;> simp
@[simp] theorem requestPage_ltx (p : Fin 4) (s : State) : (requestPage p s).ltx = s.ltx := by unfold requestPage; (repeat' split) <;> simp
@[simp] theorem requestPage_pending (p : Fin 4) (s : State) : (requestPage p s).pending = s.pending := by unfold requestPage; (repeat' split) <;> simp
@[simp] theorem requestPage_free (p : Fin 4) (s : State) : (requestPage p s).free = s.free := by unfold requestPage; (repeat' split) <;> simp

/-! requestAllPages can change: lcu, cnf, cmp. -/
@[simp] theorem requestAllPages_suu (s : State) : (requestAllPages s).suu = s.suu := by simp [requestAllPages]
@[simp] theorem requestAllPages_sto (s : State) : (requestAllPages s).sto = s.sto := by simp [requestAllPages]
@[simp] theorem requestAllPages_lif (s : State) : (requestAllPages s).lif = s.lif := by simp [requestAllPages]
@[simp] theorem requestAllPages_rck (s : State) : (requestAllPages s).rck = s.rck := by simp [requestAllPages]
@[simp] theorem requestAllPages_icu (s : State) : (requestAllPages s).icu = s.icu := by simp [requestAllPages]
@[simp] theorem requestAllPages_rng (s : State) : (requestAllPages s).rng = s.rng := by simp [requestAllPages]
@[simp] theorem requestAllPages_clt (s : State) : (requestAllPages s).clt = s.clt := by simp [requestAllPages]
@[simp] theorem requestAllPages_cht (s : State) : (requestAllPages s).cht = s.cht := by simp [requestAllPages]
@[simp] theorem requestAllPages_scu (s : State) : (requestAllPages s).scu = s.scu := by simp [requestAllPages]
@[simp] theorem requestAllPages_prs (s : State) : (requestAllPages s).prs = s.prs := by simp [requestAllPages]
@[simp] theorem requestAllPages_pnl (s : State) : (requestAllPages s).pnl = s.pnl := by simp [requestAllPages]
@[simp] theorem requestAllPages_ltx (s : State) : (requestAllPages s).ltx = s.ltx := by simp [requestAllPages]
@[simp] theorem requestAllPages_pending (s : State) : (requestAllPages s).pending = s.pending := by simp [requestAllPages]
@[simp] theorem requestAllPages_free (s : State) : (requestAllPages s).free = s.free := by simp [requestAllPages]

/-! pageAttemptEnded can change: lcu, cnf, cmp. -/
@[simp] theorem pageAttemptEnded_suu (p : Fin 4) (b : Bool) (s : State) : (pageAttemptEnded p b s).suu = s.suu := by unfold pageAttemptEnded; (repeat' split) <;> simp
@[simp] theorem pageAttemptEnded_sto (p : Fin 4) (b : Bool) (s : State) : (pageAttemptEnded p b s).sto = s.sto := by unfold pageAttemptEnded; (repeat' split) <;> simp
@[simp] theorem pageAttemptEnded_lif (p : Fin 4) (b : Bool) (s : State) : (pageAttemptEnded p b s).lif = s.lif := by unfold pageAttemptEnded; (repeat' split) <;> simp
@[simp] theorem pageAttemptEnded_rck (p : Fin 4) (b : Bool) (s : State) : (pageAttemptEnded p b s).rck = s.rck := by unfold pageAttemptEnded; (repeat' split) <;> simp
@[simp] theorem pageAttemptEnded_icu (p : Fin 4) (b : Bool) (s : State) : (pageAttemptEnded p b s).icu = s.icu := by unfold pageAttemptEnded; (repeat' split) <;> simp
@[simp] theorem pageAttemptEnded_rng (p : Fin 4) (b : Bool) (s : State) : (pageAttemptEnded p b s).rng = s.rng := by unfold pageAttemptEnded; (repeat' split) <;> simp
@[simp] theorem pageAttemptEnded_clt (p : Fin 4) (b : Bool) (s : State) : (pageAttemptEnded p b s).clt = s.clt := by unfold pageAttemptEnded; (repeat' split) <;> simp
@[simp] theorem pageAttemptEnded_cht (p : Fin 4) (b : Bool) (s : State) : (pageAttemptEnded p b s).cht = s.cht := by unfold pageAttemptEnded; (repeat' split) <;> simp
@[simp] theorem pageAttemptEnded_scu (p : Fin 4) (b : Bool) (s : State) : (pageAttemptEnded p b s).scu = s.scu := by unfold pageAttemptEnded; (repeat' split) <;> simp
@[simp] theorem pageAttemptEnded_prs (p : Fin 4) (b : Bool) (s : State) : (pageAttemptEnded p b s).prs = s.prs := by unfold pageAttemptEnded; (repeat' split) <;> simp
@[simp] theorem pageAttemptEnded_pnl (p : Fin 4) (b : Bool) (s : State) : (pageAttemptEnded p b s).pnl = s.pnl := by unfold pageAttemptEnded; (repeat' split) <;> simp
@[simp] theorem pageAttemptEnded_ltx (p : Fin 4) (b : Bool) (s : State) : (pageAttemptEnded p b s).ltx = s.ltx := by unfold pageAttemptEnded; (repeat' split) <;> simp
@[simp] theorem pageAttemptEnded_pending (p : Fin 4) (b : Bool) (s : State) : (pageAttemptEnded p b s).pending = s.pending := by unfold pageAttemptEnded; (repeat' split) <;> simp
@[simp] theorem pageAttemptEnded_free (p : Fin 4) (b : Bool) (s : State) : (pageAttemptEnded p b s).free = s.free := by unfold pageAttemptEnded; (repeat' split) <;> simp

/-! reportDrop can change: pnl. -/
@[simp] theorem reportDrop_suu (s : State) : (reportDrop s).suu = s.suu := rfl
@[simp] theorem reportDrop_sto (s : State) : (reportDrop s).sto = s.sto := rfl
@[simp] theorem reportDrop_lif (s : State) : (reportDrop s).lif = s.lif := rfl
@[simp] theorem reportDrop_lcu (s : State) : (reportDrop s).lcu = s.lcu := rfl
@[simp] theorem reportDrop_rck (s : State) : (reportDrop s).rck = s.rck := rfl
@[simp] theorem reportDrop_icu (s : State) : (reportDrop s).icu = s.icu := rfl
@[simp] theorem reportDrop_rng (s : State) : (reportDrop s).rng = s.rng := rfl
@[simp] theorem reportDrop_clt (s : State) : (reportDrop s).clt = s.clt := rfl
@[simp] theorem reportDrop_cht (s : State) : (reportDrop s).cht = s.cht := rfl
@[simp] theorem reportDrop_scu (s : State) : (reportDrop s).scu = s.scu := rfl
@[simp] theorem reportDrop_cnf (s : State) : (reportDrop s).cnf = s.cnf := rfl
@[simp] theorem reportDrop_prs (s : State) : (reportDrop s).prs = s.prs := rfl
@[simp] theorem reportDrop_cmp (s : State) : (reportDrop s).cmp = s.cmp := rfl
@[simp] theorem reportDrop_ltx (s : State) : (reportDrop s).ltx = s.ltx := rfl
@[simp] theorem reportDrop_pending (s : State) : (reportDrop s).pending = s.pending := rfl
@[simp] theorem reportDrop_free (s : State) : (reportDrop s).free = s.free := rfl

/-! setRecord can change: icu. -/
@[simp] theorem setRecord_suu (r : PressRecord) (s : State) : (setRecord r s).suu = s.suu := rfl
@[simp] theorem setRecord_sto (r : PressRecord) (s : State) : (setRecord r s).sto = s.sto := rfl
@[simp] theorem setRecord_lif (r : PressRecord) (s : State) : (setRecord r s).lif = s.lif := rfl
@[simp] theorem setRecord_lcu (r : PressRecord) (s : State) : (setRecord r s).lcu = s.lcu := rfl
@[simp] theorem setRecord_rck (r : PressRecord) (s : State) : (setRecord r s).rck = s.rck := rfl
@[simp] theorem setRecord_rng (r : PressRecord) (s : State) : (setRecord r s).rng = s.rng := rfl
@[simp] theorem setRecord_clt (r : PressRecord) (s : State) : (setRecord r s).clt = s.clt := rfl
@[simp] theorem setRecord_cht (r : PressRecord) (s : State) : (setRecord r s).cht = s.cht := rfl
@[simp] theorem setRecord_scu (r : PressRecord) (s : State) : (setRecord r s).scu = s.scu := rfl
@[simp] theorem setRecord_cnf (r : PressRecord) (s : State) : (setRecord r s).cnf = s.cnf := rfl
@[simp] theorem setRecord_prs (r : PressRecord) (s : State) : (setRecord r s).prs = s.prs := rfl
@[simp] theorem setRecord_pnl (r : PressRecord) (s : State) : (setRecord r s).pnl = s.pnl := rfl
@[simp] theorem setRecord_cmp (r : PressRecord) (s : State) : (setRecord r s).cmp = s.cmp := rfl
@[simp] theorem setRecord_ltx (r : PressRecord) (s : State) : (setRecord r s).ltx = s.ltx := rfl
@[simp] theorem setRecord_pending (r : PressRecord) (s : State) : (setRecord r s).pending = s.pending := rfl
@[simp] theorem setRecord_free (r : PressRecord) (s : State) : (setRecord r s).free = s.free := rfl

/-! claimDropped can change: icu, pnl. -/
@[simp] theorem claimDropped_suu (s : State) : (claimDropped s).suu = s.suu := rfl
@[simp] theorem claimDropped_sto (s : State) : (claimDropped s).sto = s.sto := rfl
@[simp] theorem claimDropped_lif (s : State) : (claimDropped s).lif = s.lif := rfl
@[simp] theorem claimDropped_lcu (s : State) : (claimDropped s).lcu = s.lcu := rfl
@[simp] theorem claimDropped_rck (s : State) : (claimDropped s).rck = s.rck := rfl
@[simp] theorem claimDropped_rng (s : State) : (claimDropped s).rng = s.rng := rfl
@[simp] theorem claimDropped_clt (s : State) : (claimDropped s).clt = s.clt := rfl
@[simp] theorem claimDropped_cht (s : State) : (claimDropped s).cht = s.cht := rfl
@[simp] theorem claimDropped_scu (s : State) : (claimDropped s).scu = s.scu := rfl
@[simp] theorem claimDropped_cnf (s : State) : (claimDropped s).cnf = s.cnf := rfl
@[simp] theorem claimDropped_prs (s : State) : (claimDropped s).prs = s.prs := rfl
@[simp] theorem claimDropped_cmp (s : State) : (claimDropped s).cmp = s.cmp := rfl
@[simp] theorem claimDropped_ltx (s : State) : (claimDropped s).ltx = s.ltx := rfl
@[simp] theorem claimDropped_pending (s : State) : (claimDropped s).pending = s.pending := rfl
@[simp] theorem claimDropped_free (s : State) : (claimDropped s).free = s.free := rfl

/-! choiceDropped can change: icu, pnl. -/
@[simp] theorem choiceDropped_suu (s : State) : (choiceDropped s).suu = s.suu := rfl
@[simp] theorem choiceDropped_sto (s : State) : (choiceDropped s).sto = s.sto := rfl
@[simp] theorem choiceDropped_lif (s : State) : (choiceDropped s).lif = s.lif := rfl
@[simp] theorem choiceDropped_lcu (s : State) : (choiceDropped s).lcu = s.lcu := rfl
@[simp] theorem choiceDropped_rck (s : State) : (choiceDropped s).rck = s.rck := rfl
@[simp] theorem choiceDropped_rng (s : State) : (choiceDropped s).rng = s.rng := rfl
@[simp] theorem choiceDropped_clt (s : State) : (choiceDropped s).clt = s.clt := rfl
@[simp] theorem choiceDropped_cht (s : State) : (choiceDropped s).cht = s.cht := rfl
@[simp] theorem choiceDropped_scu (s : State) : (choiceDropped s).scu = s.scu := rfl
@[simp] theorem choiceDropped_cnf (s : State) : (choiceDropped s).cnf = s.cnf := rfl
@[simp] theorem choiceDropped_prs (s : State) : (choiceDropped s).prs = s.prs := rfl
@[simp] theorem choiceDropped_cmp (s : State) : (choiceDropped s).cmp = s.cmp := rfl
@[simp] theorem choiceDropped_ltx (s : State) : (choiceDropped s).ltx = s.ltx := rfl
@[simp] theorem choiceDropped_pending (s : State) : (choiceDropped s).pending = s.pending := rfl
@[simp] theorem choiceDropped_free (s : State) : (choiceDropped s).free = s.free := rfl

/-! enterJoined can change: suu. -/
@[simp] theorem enterJoined_sto (s : State) : (enterJoined s).sto = s.sto := by unfold enterJoined; (repeat' split) <;> simp
@[simp] theorem enterJoined_lif (s : State) : (enterJoined s).lif = s.lif := by unfold enterJoined; (repeat' split) <;> simp
@[simp] theorem enterJoined_lcu (s : State) : (enterJoined s).lcu = s.lcu := by unfold enterJoined; (repeat' split) <;> simp
@[simp] theorem enterJoined_rck (s : State) : (enterJoined s).rck = s.rck := by unfold enterJoined; (repeat' split) <;> simp
@[simp] theorem enterJoined_icu (s : State) : (enterJoined s).icu = s.icu := by unfold enterJoined; (repeat' split) <;> simp
@[simp] theorem enterJoined_rng (s : State) : (enterJoined s).rng = s.rng := by unfold enterJoined; (repeat' split) <;> simp
@[simp] theorem enterJoined_clt (s : State) : (enterJoined s).clt = s.clt := by unfold enterJoined; (repeat' split) <;> simp
@[simp] theorem enterJoined_cht (s : State) : (enterJoined s).cht = s.cht := by unfold enterJoined; (repeat' split) <;> simp
@[simp] theorem enterJoined_scu (s : State) : (enterJoined s).scu = s.scu := by unfold enterJoined; (repeat' split) <;> simp
@[simp] theorem enterJoined_cnf (s : State) : (enterJoined s).cnf = s.cnf := by unfold enterJoined; (repeat' split) <;> simp
@[simp] theorem enterJoined_prs (s : State) : (enterJoined s).prs = s.prs := by unfold enterJoined; (repeat' split) <;> simp
@[simp] theorem enterJoined_pnl (s : State) : (enterJoined s).pnl = s.pnl := by unfold enterJoined; (repeat' split) <;> simp
@[simp] theorem enterJoined_cmp (s : State) : (enterJoined s).cmp = s.cmp := by unfold enterJoined; (repeat' split) <;> simp
@[simp] theorem enterJoined_ltx (s : State) : (enterJoined s).ltx = s.ltx := by unfold enterJoined; (repeat' split) <;> simp
@[simp] theorem enterJoined_pending (s : State) : (enterJoined s).pending = s.pending := by unfold enterJoined; (repeat' split) <;> simp
@[simp] theorem enterJoined_free (s : State) : (enterJoined s).free = s.free := by unfold enterJoined; (repeat' split) <;> simp

/-! handTimeout can change: lcu, cnf, cmp. -/
@[simp] theorem handTimeout_suu (s : State) : (handTimeout s).suu = s.suu := by unfold handTimeout; dsimp only; (repeat' split) <;> simp
@[simp] theorem handTimeout_sto (s : State) : (handTimeout s).sto = s.sto := by unfold handTimeout; dsimp only; (repeat' split) <;> simp
@[simp] theorem handTimeout_lif (s : State) : (handTimeout s).lif = s.lif := by unfold handTimeout; dsimp only; (repeat' split) <;> simp
@[simp] theorem handTimeout_rck (s : State) : (handTimeout s).rck = s.rck := by unfold handTimeout; dsimp only; (repeat' split) <;> simp
@[simp] theorem handTimeout_icu (s : State) : (handTimeout s).icu = s.icu := by unfold handTimeout; dsimp only; (repeat' split) <;> simp
@[simp] theorem handTimeout_rng (s : State) : (handTimeout s).rng = s.rng := by unfold handTimeout; dsimp only; (repeat' split) <;> simp
@[simp] theorem handTimeout_clt (s : State) : (handTimeout s).clt = s.clt := by unfold handTimeout; dsimp only; (repeat' split) <;> simp
@[simp] theorem handTimeout_cht (s : State) : (handTimeout s).cht = s.cht := by unfold handTimeout; dsimp only; (repeat' split) <;> simp
@[simp] theorem handTimeout_scu (s : State) : (handTimeout s).scu = s.scu := by unfold handTimeout; dsimp only; (repeat' split) <;> simp
@[simp] theorem handTimeout_prs (s : State) : (handTimeout s).prs = s.prs := by unfold handTimeout; dsimp only; (repeat' split) <;> simp
@[simp] theorem handTimeout_pnl (s : State) : (handTimeout s).pnl = s.pnl := by unfold handTimeout; dsimp only; (repeat' split) <;> simp
@[simp] theorem handTimeout_ltx (s : State) : (handTimeout s).ltx = s.ltx := by unfold handTimeout; dsimp only; (repeat' split) <;> simp
@[simp] theorem handTimeout_pending (s : State) : (handTimeout s).pending = s.pending := by unfold handTimeout; dsimp only; (repeat' split) <;> simp
@[simp] theorem handTimeout_free (s : State) : (handTimeout s).free = s.free := by unfold handTimeout; dsimp only; (repeat' split) <;> simp

/-! clearMarker can change: cnf. -/
@[simp] theorem clearMarker_suu (s : State) : (clearMarker s).suu = s.suu := rfl
@[simp] theorem clearMarker_sto (s : State) : (clearMarker s).sto = s.sto := rfl
@[simp] theorem clearMarker_lif (s : State) : (clearMarker s).lif = s.lif := rfl
@[simp] theorem clearMarker_lcu (s : State) : (clearMarker s).lcu = s.lcu := rfl
@[simp] theorem clearMarker_rck (s : State) : (clearMarker s).rck = s.rck := rfl
@[simp] theorem clearMarker_icu (s : State) : (clearMarker s).icu = s.icu := rfl
@[simp] theorem clearMarker_rng (s : State) : (clearMarker s).rng = s.rng := rfl
@[simp] theorem clearMarker_clt (s : State) : (clearMarker s).clt = s.clt := rfl
@[simp] theorem clearMarker_cht (s : State) : (clearMarker s).cht = s.cht := rfl
@[simp] theorem clearMarker_scu (s : State) : (clearMarker s).scu = s.scu := rfl
@[simp] theorem clearMarker_prs (s : State) : (clearMarker s).prs = s.prs := rfl
@[simp] theorem clearMarker_pnl (s : State) : (clearMarker s).pnl = s.pnl := rfl
@[simp] theorem clearMarker_cmp (s : State) : (clearMarker s).cmp = s.cmp := rfl
@[simp] theorem clearMarker_ltx (s : State) : (clearMarker s).ltx = s.ltx := rfl
@[simp] theorem clearMarker_pending (s : State) : (clearMarker s).pending = s.pending := rfl
@[simp] theorem clearMarker_free (s : State) : (clearMarker s).free = s.free := rfl

/-! verdictDropped can change: lcu, rng, cnf, cmp. -/
@[simp] theorem verdictDropped_suu (b : Bool) (s : State) : (verdictDropped b s).suu = s.suu := by unfold verdictDropped; (repeat' split) <;> simp
@[simp] theorem verdictDropped_sto (b : Bool) (s : State) : (verdictDropped b s).sto = s.sto := by unfold verdictDropped; (repeat' split) <;> simp
@[simp] theorem verdictDropped_lif (b : Bool) (s : State) : (verdictDropped b s).lif = s.lif := by unfold verdictDropped; (repeat' split) <;> simp
@[simp] theorem verdictDropped_rck (b : Bool) (s : State) : (verdictDropped b s).rck = s.rck := by unfold verdictDropped; (repeat' split) <;> simp
@[simp] theorem verdictDropped_icu (b : Bool) (s : State) : (verdictDropped b s).icu = s.icu := by unfold verdictDropped; (repeat' split) <;> simp
@[simp] theorem verdictDropped_clt (b : Bool) (s : State) : (verdictDropped b s).clt = s.clt := by unfold verdictDropped; (repeat' split) <;> simp
@[simp] theorem verdictDropped_cht (b : Bool) (s : State) : (verdictDropped b s).cht = s.cht := by unfold verdictDropped; (repeat' split) <;> simp
@[simp] theorem verdictDropped_scu (b : Bool) (s : State) : (verdictDropped b s).scu = s.scu := by unfold verdictDropped; (repeat' split) <;> simp
@[simp] theorem verdictDropped_prs (b : Bool) (s : State) : (verdictDropped b s).prs = s.prs := by unfold verdictDropped; (repeat' split) <;> simp
@[simp] theorem verdictDropped_pnl (b : Bool) (s : State) : (verdictDropped b s).pnl = s.pnl := by unfold verdictDropped; (repeat' split) <;> simp
@[simp] theorem verdictDropped_ltx (b : Bool) (s : State) : (verdictDropped b s).ltx = s.ltx := by unfold verdictDropped; (repeat' split) <;> simp
@[simp] theorem verdictDropped_pending (b : Bool) (s : State) : (verdictDropped b s).pending = s.pending := by unfold verdictDropped; (repeat' split) <;> simp
@[simp] theorem verdictDropped_free (b : Bool) (s : State) : (verdictDropped b s).free = s.free := by unfold verdictDropped; (repeat' split) <;> simp

/-! told can change: suu, lcu, icu, rng, cnf, pnl, cmp. -/
@[simp] theorem told_sto (x : Fate) (f : QFrame) (s : State) : (told x f s).sto = s.sto := by unfold told; (repeat' split) <;> simp
@[simp] theorem told_lif (x : Fate) (f : QFrame) (s : State) : (told x f s).lif = s.lif := by unfold told; (repeat' split) <;> simp
@[simp] theorem told_rck (x : Fate) (f : QFrame) (s : State) : (told x f s).rck = s.rck := by unfold told; (repeat' split) <;> simp
@[simp] theorem told_clt (x : Fate) (f : QFrame) (s : State) : (told x f s).clt = s.clt := by unfold told; (repeat' split) <;> simp
@[simp] theorem told_cht (x : Fate) (f : QFrame) (s : State) : (told x f s).cht = s.cht := by unfold told; (repeat' split) <;> simp
@[simp] theorem told_scu (x : Fate) (f : QFrame) (s : State) : (told x f s).scu = s.scu := by unfold told; (repeat' split) <;> simp
@[simp] theorem told_prs (x : Fate) (f : QFrame) (s : State) : (told x f s).prs = s.prs := by unfold told; (repeat' split) <;> simp
@[simp] theorem told_ltx (x : Fate) (f : QFrame) (s : State) : (told x f s).ltx = s.ltx := by unfold told; (repeat' split) <;> simp
@[simp] theorem told_pending (x : Fate) (f : QFrame) (s : State) : (told x f s).pending = s.pending := by unfold told; (repeat' split) <;> simp
@[simp] theorem told_free (x : Fate) (f : QFrame) (s : State) : (told x f s).free = s.free := by unfold told; (repeat' split) <;> simp

/-! tellPage can change: lcu, cnf, cmp. -/
@[simp] theorem tellPage_suu (f : QFrame) (b : Bool) (s : State) : (tellPage f b s).suu = s.suu := by unfold tellPage; (repeat' split) <;> simp
@[simp] theorem tellPage_sto (f : QFrame) (b : Bool) (s : State) : (tellPage f b s).sto = s.sto := by unfold tellPage; (repeat' split) <;> simp
@[simp] theorem tellPage_lif (f : QFrame) (b : Bool) (s : State) : (tellPage f b s).lif = s.lif := by unfold tellPage; (repeat' split) <;> simp
@[simp] theorem tellPage_rck (f : QFrame) (b : Bool) (s : State) : (tellPage f b s).rck = s.rck := by unfold tellPage; (repeat' split) <;> simp
@[simp] theorem tellPage_icu (f : QFrame) (b : Bool) (s : State) : (tellPage f b s).icu = s.icu := by unfold tellPage; (repeat' split) <;> simp
@[simp] theorem tellPage_rng (f : QFrame) (b : Bool) (s : State) : (tellPage f b s).rng = s.rng := by unfold tellPage; (repeat' split) <;> simp
@[simp] theorem tellPage_clt (f : QFrame) (b : Bool) (s : State) : (tellPage f b s).clt = s.clt := by unfold tellPage; (repeat' split) <;> simp
@[simp] theorem tellPage_cht (f : QFrame) (b : Bool) (s : State) : (tellPage f b s).cht = s.cht := by unfold tellPage; (repeat' split) <;> simp
@[simp] theorem tellPage_scu (f : QFrame) (b : Bool) (s : State) : (tellPage f b s).scu = s.scu := by unfold tellPage; (repeat' split) <;> simp
@[simp] theorem tellPage_prs (f : QFrame) (b : Bool) (s : State) : (tellPage f b s).prs = s.prs := by unfold tellPage; (repeat' split) <;> simp
@[simp] theorem tellPage_pnl (f : QFrame) (b : Bool) (s : State) : (tellPage f b s).pnl = s.pnl := by unfold tellPage; (repeat' split) <;> simp
@[simp] theorem tellPage_ltx (f : QFrame) (b : Bool) (s : State) : (tellPage f b s).ltx = s.ltx := by unfold tellPage; (repeat' split) <;> simp
@[simp] theorem tellPage_pending (f : QFrame) (b : Bool) (s : State) : (tellPage f b s).pending = s.pending := by unfold tellPage; (repeat' split) <;> simp
@[simp] theorem tellPage_free (f : QFrame) (b : Bool) (s : State) : (tellPage f b s).free = s.free := by unfold tellPage; (repeat' split) <;> simp

/-! leave can change: suu, lcu, icu, rng, cnf, pnl, cmp. -/
@[simp] theorem leave_sto (x : Fate) (f : QFrame) (s : State) : (leave x f s).sto = s.sto := by simp [leave]
@[simp] theorem leave_lif (x : Fate) (f : QFrame) (s : State) : (leave x f s).lif = s.lif := by simp [leave]
@[simp] theorem leave_rck (x : Fate) (f : QFrame) (s : State) : (leave x f s).rck = s.rck := by simp [leave]
@[simp] theorem leave_clt (x : Fate) (f : QFrame) (s : State) : (leave x f s).clt = s.clt := by simp [leave]
@[simp] theorem leave_cht (x : Fate) (f : QFrame) (s : State) : (leave x f s).cht = s.cht := by simp [leave]
@[simp] theorem leave_scu (x : Fate) (f : QFrame) (s : State) : (leave x f s).scu = s.scu := by simp [leave]
@[simp] theorem leave_prs (x : Fate) (f : QFrame) (s : State) : (leave x f s).prs = s.prs := by simp [leave]
@[simp] theorem leave_ltx (x : Fate) (f : QFrame) (s : State) : (leave x f s).ltx = s.ltx := by simp [leave]
@[simp] theorem leave_pending (x : Fate) (f : QFrame) (s : State) : (leave x f s).pending = s.pending := by simp [leave]
@[simp] theorem leave_free (x : Fate) (f : QFrame) (s : State) : (leave x f s).free = s.free := by simp [leave]

/-! resolveAttempt can change: suu, lcu, icu, rng, cnf, pnl, cmp. -/
@[simp] theorem resolveAttempt_sto (e : AttemptEnd) (f : QFrame) (s : State) : (resolveAttempt e f s).sto = s.sto := by unfold resolveAttempt; (repeat' split) <;> simp
@[simp] theorem resolveAttempt_lif (e : AttemptEnd) (f : QFrame) (s : State) : (resolveAttempt e f s).lif = s.lif := by unfold resolveAttempt; (repeat' split) <;> simp
@[simp] theorem resolveAttempt_rck (e : AttemptEnd) (f : QFrame) (s : State) : (resolveAttempt e f s).rck = s.rck := by unfold resolveAttempt; (repeat' split) <;> simp
@[simp] theorem resolveAttempt_clt (e : AttemptEnd) (f : QFrame) (s : State) : (resolveAttempt e f s).clt = s.clt := by unfold resolveAttempt; (repeat' split) <;> simp
@[simp] theorem resolveAttempt_cht (e : AttemptEnd) (f : QFrame) (s : State) : (resolveAttempt e f s).cht = s.cht := by unfold resolveAttempt; (repeat' split) <;> simp
@[simp] theorem resolveAttempt_scu (e : AttemptEnd) (f : QFrame) (s : State) : (resolveAttempt e f s).scu = s.scu := by unfold resolveAttempt; (repeat' split) <;> simp
@[simp] theorem resolveAttempt_prs (e : AttemptEnd) (f : QFrame) (s : State) : (resolveAttempt e f s).prs = s.prs := by unfold resolveAttempt; (repeat' split) <;> simp
@[simp] theorem resolveAttempt_ltx (e : AttemptEnd) (f : QFrame) (s : State) : (resolveAttempt e f s).ltx = s.ltx := by unfold resolveAttempt; (repeat' split) <;> simp
@[simp] theorem resolveAttempt_pending (e : AttemptEnd) (f : QFrame) (s : State) : (resolveAttempt e f s).pending = s.pending := by unfold resolveAttempt; (repeat' split) <;> simp
@[simp] theorem resolveAttempt_free (e : AttemptEnd) (f : QFrame) (s : State) : (resolveAttempt e f s).free = s.free := by unfold resolveAttempt; (repeat' split) <;> simp

/-! resolve can change: suu, lcu, icu, rng, cnf, pnl, cmp. -/
@[simp] theorem resolve_sto (e : AttemptEnd) (s : State) : (resolve e s).sto = s.sto := by unfold resolve; (repeat' split) <;> simp
@[simp] theorem resolve_lif (e : AttemptEnd) (s : State) : (resolve e s).lif = s.lif := by unfold resolve; (repeat' split) <;> simp
@[simp] theorem resolve_rck (e : AttemptEnd) (s : State) : (resolve e s).rck = s.rck := by unfold resolve; (repeat' split) <;> simp
@[simp] theorem resolve_clt (e : AttemptEnd) (s : State) : (resolve e s).clt = s.clt := by unfold resolve; (repeat' split) <;> simp
@[simp] theorem resolve_cht (e : AttemptEnd) (s : State) : (resolve e s).cht = s.cht := by unfold resolve; (repeat' split) <;> simp
@[simp] theorem resolve_scu (e : AttemptEnd) (s : State) : (resolve e s).scu = s.scu := by unfold resolve; (repeat' split) <;> simp
@[simp] theorem resolve_prs (e : AttemptEnd) (s : State) : (resolve e s).prs = s.prs := by unfold resolve; (repeat' split) <;> simp
@[simp] theorem resolve_ltx (e : AttemptEnd) (s : State) : (resolve e s).ltx = s.ltx := by unfold resolve; (repeat' split) <;> simp
@[simp] theorem resolve_pending (e : AttemptEnd) (s : State) : (resolve e s).pending = s.pending := by unfold resolve; (repeat' split) <;> simp
@[simp] theorem resolve_free (e : AttemptEnd) (s : State) : (resolve e s).free = s.free := by unfold resolve; (repeat' split) <;> simp

/-! endAttempt can change: suu, lcu, icu, rng, cnf, pnl, cmp. -/
@[simp] theorem endAttempt_sto (e : AttemptEnd) (s : State) : (endAttempt e s).sto = s.sto := by simp [endAttempt]
@[simp] theorem endAttempt_lif (e : AttemptEnd) (s : State) : (endAttempt e s).lif = s.lif := by simp [endAttempt]
@[simp] theorem endAttempt_rck (e : AttemptEnd) (s : State) : (endAttempt e s).rck = s.rck := by simp [endAttempt]
@[simp] theorem endAttempt_clt (e : AttemptEnd) (s : State) : (endAttempt e s).clt = s.clt := by simp [endAttempt]
@[simp] theorem endAttempt_cht (e : AttemptEnd) (s : State) : (endAttempt e s).cht = s.cht := by simp [endAttempt]
@[simp] theorem endAttempt_scu (e : AttemptEnd) (s : State) : (endAttempt e s).scu = s.scu := by simp [endAttempt]
@[simp] theorem endAttempt_prs (e : AttemptEnd) (s : State) : (endAttempt e s).prs = s.prs := by simp [endAttempt]
@[simp] theorem endAttempt_ltx (e : AttemptEnd) (s : State) : (endAttempt e s).ltx = s.ltx := by simp [endAttempt]
@[simp] theorem endAttempt_pending (e : AttemptEnd) (s : State) : (endAttempt e s).pending = s.pending := by simp [endAttempt]
@[simp] theorem endAttempt_free (e : AttemptEnd) (s : State) : (endAttempt e s).free = s.free := by simp [endAttempt]

/-! withdraw can change: suu, lcu, icu, rng, cnf, pnl, cmp. -/
@[simp] theorem withdraw_sto (p : Place) (s : State) : (withdraw p s).sto = s.sto := by unfold withdraw; dsimp only; (repeat' split) <;> simp
@[simp] theorem withdraw_lif (p : Place) (s : State) : (withdraw p s).lif = s.lif := by unfold withdraw; dsimp only; (repeat' split) <;> simp
@[simp] theorem withdraw_rck (p : Place) (s : State) : (withdraw p s).rck = s.rck := by unfold withdraw; dsimp only; (repeat' split) <;> simp
@[simp] theorem withdraw_clt (p : Place) (s : State) : (withdraw p s).clt = s.clt := by unfold withdraw; dsimp only; (repeat' split) <;> simp
@[simp] theorem withdraw_cht (p : Place) (s : State) : (withdraw p s).cht = s.cht := by unfold withdraw; dsimp only; (repeat' split) <;> simp
@[simp] theorem withdraw_scu (p : Place) (s : State) : (withdraw p s).scu = s.scu := by unfold withdraw; dsimp only; (repeat' split) <;> simp
@[simp] theorem withdraw_prs (p : Place) (s : State) : (withdraw p s).prs = s.prs := by unfold withdraw; dsimp only; (repeat' split) <;> simp
@[simp] theorem withdraw_ltx (p : Place) (s : State) : (withdraw p s).ltx = s.ltx := by unfold withdraw; dsimp only; (repeat' split) <;> simp
@[simp] theorem withdraw_pending (p : Place) (s : State) : (withdraw p s).pending = s.pending := by unfold withdraw; dsimp only; (repeat' split) <;> simp
@[simp] theorem withdraw_free (p : Place) (s : State) : (withdraw p s).free = s.free := by unfold withdraw; dsimp only; (repeat' split) <;> simp

/-! withdrawOwn can change: suu, lcu, icu, rng, cnf, pnl, cmp. -/
@[simp] theorem withdrawOwn_sto (s : State) : (withdrawOwn s).sto = s.sto := by simp [withdrawOwn]
@[simp] theorem withdrawOwn_lif (s : State) : (withdrawOwn s).lif = s.lif := by simp [withdrawOwn]
@[simp] theorem withdrawOwn_rck (s : State) : (withdrawOwn s).rck = s.rck := by simp [withdrawOwn]
@[simp] theorem withdrawOwn_clt (s : State) : (withdrawOwn s).clt = s.clt := by simp [withdrawOwn]
@[simp] theorem withdrawOwn_cht (s : State) : (withdrawOwn s).cht = s.cht := by simp [withdrawOwn]
@[simp] theorem withdrawOwn_scu (s : State) : (withdrawOwn s).scu = s.scu := by simp [withdrawOwn]
@[simp] theorem withdrawOwn_prs (s : State) : (withdrawOwn s).prs = s.prs := by simp [withdrawOwn]
@[simp] theorem withdrawOwn_ltx (s : State) : (withdrawOwn s).ltx = s.ltx := by simp [withdrawOwn]
@[simp] theorem withdrawOwn_pending (s : State) : (withdrawOwn s).pending = s.pending := by simp [withdrawOwn]
@[simp] theorem withdrawOwn_free (s : State) : (withdrawOwn s).free = s.free := by simp [withdrawOwn]

/-! stopTimers can change: lcu. -/
@[simp] theorem stopTimers_suu (s : State) : (stopTimers s).suu = s.suu := rfl
@[simp] theorem stopTimers_sto (s : State) : (stopTimers s).sto = s.sto := rfl
@[simp] theorem stopTimers_lif (s : State) : (stopTimers s).lif = s.lif := rfl
@[simp] theorem stopTimers_rck (s : State) : (stopTimers s).rck = s.rck := rfl
@[simp] theorem stopTimers_icu (s : State) : (stopTimers s).icu = s.icu := rfl
@[simp] theorem stopTimers_rng (s : State) : (stopTimers s).rng = s.rng := rfl
@[simp] theorem stopTimers_clt (s : State) : (stopTimers s).clt = s.clt := rfl
@[simp] theorem stopTimers_cht (s : State) : (stopTimers s).cht = s.cht := rfl
@[simp] theorem stopTimers_scu (s : State) : (stopTimers s).scu = s.scu := rfl
@[simp] theorem stopTimers_cnf (s : State) : (stopTimers s).cnf = s.cnf := rfl
@[simp] theorem stopTimers_prs (s : State) : (stopTimers s).prs = s.prs := rfl
@[simp] theorem stopTimers_pnl (s : State) : (stopTimers s).pnl = s.pnl := rfl
@[simp] theorem stopTimers_cmp (s : State) : (stopTimers s).cmp = s.cmp := rfl
@[simp] theorem stopTimers_ltx (s : State) : (stopTimers s).ltx = s.ltx := rfl
@[simp] theorem stopTimers_pending (s : State) : (stopTimers s).pending = s.pending := rfl
@[simp] theorem stopTimers_free (s : State) : (stopTimers s).free = s.free := rfl

/-! dropFrame can change: suu, lcu, icu, rng, cnf, pnl, cmp. -/
@[simp] theorem dropFrame_sto (f : QFrame) (s : State) : (dropFrame s f).sto = s.sto := by simp [dropFrame]
@[simp] theorem dropFrame_lif (f : QFrame) (s : State) : (dropFrame s f).lif = s.lif := by simp [dropFrame]
@[simp] theorem dropFrame_rck (f : QFrame) (s : State) : (dropFrame s f).rck = s.rck := by simp [dropFrame]
@[simp] theorem dropFrame_clt (f : QFrame) (s : State) : (dropFrame s f).clt = s.clt := by simp [dropFrame]
@[simp] theorem dropFrame_cht (f : QFrame) (s : State) : (dropFrame s f).cht = s.cht := by simp [dropFrame]
@[simp] theorem dropFrame_scu (f : QFrame) (s : State) : (dropFrame s f).scu = s.scu := by simp [dropFrame]
@[simp] theorem dropFrame_prs (f : QFrame) (s : State) : (dropFrame s f).prs = s.prs := by simp [dropFrame]
@[simp] theorem dropFrame_ltx (f : QFrame) (s : State) : (dropFrame s f).ltx = s.ltx := by simp [dropFrame]
@[simp] theorem dropFrame_pending (f : QFrame) (s : State) : (dropFrame s f).pending = s.pending := by simp [dropFrame]
@[simp] theorem dropFrame_free (f : QFrame) (s : State) : (dropFrame s f).free = s.free := by simp [dropFrame]

/-! foldDrop can change: suu, lcu, icu, rng, cnf, pnl, cmp. -/
@[simp] theorem foldDrop_sto (q : List QFrame) (s : State) : (q.foldl dropFrame s).sto = s.sto := by induction q generalizing s with
  | nil => rfl
  | cons f q ih => simp [ih]
@[simp] theorem foldDrop_lif (q : List QFrame) (s : State) : (q.foldl dropFrame s).lif = s.lif := by induction q generalizing s with
  | nil => rfl
  | cons f q ih => simp [ih]
@[simp] theorem foldDrop_rck (q : List QFrame) (s : State) : (q.foldl dropFrame s).rck = s.rck := by induction q generalizing s with
  | nil => rfl
  | cons f q ih => simp [ih]
@[simp] theorem foldDrop_clt (q : List QFrame) (s : State) : (q.foldl dropFrame s).clt = s.clt := by induction q generalizing s with
  | nil => rfl
  | cons f q ih => simp [ih]
@[simp] theorem foldDrop_cht (q : List QFrame) (s : State) : (q.foldl dropFrame s).cht = s.cht := by induction q generalizing s with
  | nil => rfl
  | cons f q ih => simp [ih]
@[simp] theorem foldDrop_scu (q : List QFrame) (s : State) : (q.foldl dropFrame s).scu = s.scu := by induction q generalizing s with
  | nil => rfl
  | cons f q ih => simp [ih]
@[simp] theorem foldDrop_prs (q : List QFrame) (s : State) : (q.foldl dropFrame s).prs = s.prs := by induction q generalizing s with
  | nil => rfl
  | cons f q ih => simp [ih]
@[simp] theorem foldDrop_ltx (q : List QFrame) (s : State) : (q.foldl dropFrame s).ltx = s.ltx := by induction q generalizing s with
  | nil => rfl
  | cons f q ih => simp [ih]
@[simp] theorem foldDrop_pending (q : List QFrame) (s : State) : (q.foldl dropFrame s).pending = s.pending := by induction q generalizing s with
  | nil => rfl
  | cons f q ih => simp [ih]
@[simp] theorem foldDrop_free (q : List QFrame) (s : State) : (q.foldl dropFrame s).free = s.free := by induction q generalizing s with
  | nil => rfl
  | cons f q ih => simp [ih]

/-! emptyQueue can change: suu, lcu, icu, rng, cnf, pnl, cmp. -/
@[simp] theorem emptyQueue_sto (s : State) : (emptyQueue s).sto = s.sto := by simp [emptyQueue]
@[simp] theorem emptyQueue_lif (s : State) : (emptyQueue s).lif = s.lif := by simp [emptyQueue]
@[simp] theorem emptyQueue_rck (s : State) : (emptyQueue s).rck = s.rck := by simp [emptyQueue]
@[simp] theorem emptyQueue_clt (s : State) : (emptyQueue s).clt = s.clt := by simp [emptyQueue]
@[simp] theorem emptyQueue_cht (s : State) : (emptyQueue s).cht = s.cht := by simp [emptyQueue]
@[simp] theorem emptyQueue_scu (s : State) : (emptyQueue s).scu = s.scu := by simp [emptyQueue]
@[simp] theorem emptyQueue_prs (s : State) : (emptyQueue s).prs = s.prs := by simp [emptyQueue]
@[simp] theorem emptyQueue_ltx (s : State) : (emptyQueue s).ltx = s.ltx := by simp [emptyQueue]
@[simp] theorem emptyQueue_pending (s : State) : (emptyQueue s).pending = s.pending := by simp [emptyQueue]
@[simp] theorem emptyQueue_free (s : State) : (emptyQueue s).free = s.free := by simp [emptyQueue]

/-! enterHalted can change: suu, lcu, icu, rng, cnf, pnl, cmp. -/
@[simp] theorem enterHalted_sto (s : State) : (enterHalted s).sto = s.sto := by simp [enterHalted]
@[simp] theorem enterHalted_lif (s : State) : (enterHalted s).lif = s.lif := by simp [enterHalted]
@[simp] theorem enterHalted_rck (s : State) : (enterHalted s).rck = s.rck := by simp [enterHalted]
@[simp] theorem enterHalted_clt (s : State) : (enterHalted s).clt = s.clt := by simp [enterHalted]
@[simp] theorem enterHalted_cht (s : State) : (enterHalted s).cht = s.cht := by simp [enterHalted]
@[simp] theorem enterHalted_scu (s : State) : (enterHalted s).scu = s.scu := by simp [enterHalted]
@[simp] theorem enterHalted_prs (s : State) : (enterHalted s).prs = s.prs := by simp [enterHalted]
@[simp] theorem enterHalted_ltx (s : State) : (enterHalted s).ltx = s.ltx := by simp [enterHalted]
@[simp] theorem enterHalted_pending (s : State) : (enterHalted s).pending = s.pending := by simp [enterHalted]
@[simp] theorem enterHalted_free (s : State) : (enterHalted s).free = s.free := by simp [enterHalted]

/-! enterMuted can change: suu, lcu, icu, rng, cnf, pnl, cmp. -/
@[simp] theorem enterMuted_sto (s : State) : (enterMuted s).sto = s.sto := by unfold enterMuted; (repeat' split) <;> simp
@[simp] theorem enterMuted_lif (s : State) : (enterMuted s).lif = s.lif := by unfold enterMuted; (repeat' split) <;> simp
@[simp] theorem enterMuted_rck (s : State) : (enterMuted s).rck = s.rck := by unfold enterMuted; (repeat' split) <;> simp
@[simp] theorem enterMuted_clt (s : State) : (enterMuted s).clt = s.clt := by unfold enterMuted; (repeat' split) <;> simp
@[simp] theorem enterMuted_cht (s : State) : (enterMuted s).cht = s.cht := by unfold enterMuted; (repeat' split) <;> simp
@[simp] theorem enterMuted_scu (s : State) : (enterMuted s).scu = s.scu := by unfold enterMuted; (repeat' split) <;> simp
@[simp] theorem enterMuted_prs (s : State) : (enterMuted s).prs = s.prs := by unfold enterMuted; (repeat' split) <;> simp
@[simp] theorem enterMuted_ltx (s : State) : (enterMuted s).ltx = s.ltx := by unfold enterMuted; (repeat' split) <;> simp
@[simp] theorem enterMuted_pending (s : State) : (enterMuted s).pending = s.pending := by unfold enterMuted; (repeat' split) <;> simp
@[simp] theorem enterMuted_free (s : State) : (enterMuted s).free = s.free := by unfold enterMuted; (repeat' split) <;> simp

/-! mute can change: suu, lcu, icu, rng, cnf, pnl, cmp. -/
@[simp] theorem mute_sto (s : State) : (mute s).sto = s.sto := by unfold mute; (repeat' split) <;> simp
@[simp] theorem mute_lif (s : State) : (mute s).lif = s.lif := by unfold mute; (repeat' split) <;> simp
@[simp] theorem mute_rck (s : State) : (mute s).rck = s.rck := by unfold mute; (repeat' split) <;> simp
@[simp] theorem mute_clt (s : State) : (mute s).clt = s.clt := by unfold mute; (repeat' split) <;> simp
@[simp] theorem mute_cht (s : State) : (mute s).cht = s.cht := by unfold mute; (repeat' split) <;> simp
@[simp] theorem mute_scu (s : State) : (mute s).scu = s.scu := by unfold mute; (repeat' split) <;> simp
@[simp] theorem mute_prs (s : State) : (mute s).prs = s.prs := by unfold mute; (repeat' split) <;> simp
@[simp] theorem mute_ltx (s : State) : (mute s).ltx = s.ltx := by unfold mute; (repeat' split) <;> simp
@[simp] theorem mute_pending (s : State) : (mute s).pending = s.pending := by unfold mute; (repeat' split) <;> simp
@[simp] theorem mute_free (s : State) : (mute s).free = s.free := by unfold mute; (repeat' split) <;> simp

/-! writeRecord can change: lcu. -/
@[simp] theorem writeRecord_suu (c : FaultCause) (x : Option (Nat × Nat)) (s : State) : (writeRecord c x s).suu = s.suu := rfl
@[simp] theorem writeRecord_sto (c : FaultCause) (x : Option (Nat × Nat)) (s : State) : (writeRecord c x s).sto = s.sto := rfl
@[simp] theorem writeRecord_lif (c : FaultCause) (x : Option (Nat × Nat)) (s : State) : (writeRecord c x s).lif = s.lif := rfl
@[simp] theorem writeRecord_rck (c : FaultCause) (x : Option (Nat × Nat)) (s : State) : (writeRecord c x s).rck = s.rck := rfl
@[simp] theorem writeRecord_icu (c : FaultCause) (x : Option (Nat × Nat)) (s : State) : (writeRecord c x s).icu = s.icu := rfl
@[simp] theorem writeRecord_rng (c : FaultCause) (x : Option (Nat × Nat)) (s : State) : (writeRecord c x s).rng = s.rng := rfl
@[simp] theorem writeRecord_clt (c : FaultCause) (x : Option (Nat × Nat)) (s : State) : (writeRecord c x s).clt = s.clt := rfl
@[simp] theorem writeRecord_cht (c : FaultCause) (x : Option (Nat × Nat)) (s : State) : (writeRecord c x s).cht = s.cht := rfl
@[simp] theorem writeRecord_scu (c : FaultCause) (x : Option (Nat × Nat)) (s : State) : (writeRecord c x s).scu = s.scu := rfl
@[simp] theorem writeRecord_cnf (c : FaultCause) (x : Option (Nat × Nat)) (s : State) : (writeRecord c x s).cnf = s.cnf := rfl
@[simp] theorem writeRecord_prs (c : FaultCause) (x : Option (Nat × Nat)) (s : State) : (writeRecord c x s).prs = s.prs := rfl
@[simp] theorem writeRecord_pnl (c : FaultCause) (x : Option (Nat × Nat)) (s : State) : (writeRecord c x s).pnl = s.pnl := rfl
@[simp] theorem writeRecord_cmp (c : FaultCause) (x : Option (Nat × Nat)) (s : State) : (writeRecord c x s).cmp = s.cmp := rfl
@[simp] theorem writeRecord_ltx (c : FaultCause) (x : Option (Nat × Nat)) (s : State) : (writeRecord c x s).ltx = s.ltx := rfl
@[simp] theorem writeRecord_pending (c : FaultCause) (x : Option (Nat × Nat)) (s : State) : (writeRecord c x s).pending = s.pending := rfl
@[simp] theorem writeRecord_free (c : FaultCause) (x : Option (Nat × Nat)) (s : State) : (writeRecord c x s).free = s.free := rfl

/-! escalate can change: lcu. -/
@[simp] theorem escalate_suu (s : State) : (escalate s).suu = s.suu := rfl
@[simp] theorem escalate_sto (s : State) : (escalate s).sto = s.sto := rfl
@[simp] theorem escalate_lif (s : State) : (escalate s).lif = s.lif := rfl
@[simp] theorem escalate_rck (s : State) : (escalate s).rck = s.rck := rfl
@[simp] theorem escalate_icu (s : State) : (escalate s).icu = s.icu := rfl
@[simp] theorem escalate_rng (s : State) : (escalate s).rng = s.rng := rfl
@[simp] theorem escalate_clt (s : State) : (escalate s).clt = s.clt := rfl
@[simp] theorem escalate_cht (s : State) : (escalate s).cht = s.cht := rfl
@[simp] theorem escalate_scu (s : State) : (escalate s).scu = s.scu := rfl
@[simp] theorem escalate_cnf (s : State) : (escalate s).cnf = s.cnf := rfl
@[simp] theorem escalate_prs (s : State) : (escalate s).prs = s.prs := rfl
@[simp] theorem escalate_pnl (s : State) : (escalate s).pnl = s.pnl := rfl
@[simp] theorem escalate_cmp (s : State) : (escalate s).cmp = s.cmp := rfl
@[simp] theorem escalate_ltx (s : State) : (escalate s).ltx = s.ltx := rfl
@[simp] theorem escalate_pending (s : State) : (escalate s).pending = s.pending := rfl
@[simp] theorem escalate_free (s : State) : (escalate s).free = s.free := rfl

/-! setPhase can change: rng. -/
@[simp] theorem setPhase_suu (p : Phase) (s : State) : (setPhase p s).suu = s.suu := rfl
@[simp] theorem setPhase_sto (p : Phase) (s : State) : (setPhase p s).sto = s.sto := rfl
@[simp] theorem setPhase_lif (p : Phase) (s : State) : (setPhase p s).lif = s.lif := rfl
@[simp] theorem setPhase_lcu (p : Phase) (s : State) : (setPhase p s).lcu = s.lcu := rfl
@[simp] theorem setPhase_rck (p : Phase) (s : State) : (setPhase p s).rck = s.rck := rfl
@[simp] theorem setPhase_icu (p : Phase) (s : State) : (setPhase p s).icu = s.icu := rfl
@[simp] theorem setPhase_clt (p : Phase) (s : State) : (setPhase p s).clt = s.clt := rfl
@[simp] theorem setPhase_cht (p : Phase) (s : State) : (setPhase p s).cht = s.cht := rfl
@[simp] theorem setPhase_scu (p : Phase) (s : State) : (setPhase p s).scu = s.scu := rfl
@[simp] theorem setPhase_cnf (p : Phase) (s : State) : (setPhase p s).cnf = s.cnf := rfl
@[simp] theorem setPhase_prs (p : Phase) (s : State) : (setPhase p s).prs = s.prs := rfl
@[simp] theorem setPhase_pnl (p : Phase) (s : State) : (setPhase p s).pnl = s.pnl := rfl
@[simp] theorem setPhase_cmp (p : Phase) (s : State) : (setPhase p s).cmp = s.cmp := rfl
@[simp] theorem setPhase_ltx (p : Phase) (s : State) : (setPhase p s).ltx = s.ltx := rfl
@[simp] theorem setPhase_pending (p : Phase) (s : State) : (setPhase p s).pending = s.pending := rfl
@[simp] theorem setPhase_free (p : Phase) (s : State) : (setPhase p s).free = s.free := rfl

/-! enterEnded can change: suu, lcu, rck, icu, rng, cnf, pnl, cmp. -/
@[simp] theorem enterEnded_sto (s : State) : (enterEnded s).sto = s.sto := by simp [enterEnded]
@[simp] theorem enterEnded_lif (s : State) : (enterEnded s).lif = s.lif := by simp [enterEnded]
@[simp] theorem enterEnded_clt (s : State) : (enterEnded s).clt = s.clt := by simp [enterEnded]
@[simp] theorem enterEnded_cht (s : State) : (enterEnded s).cht = s.cht := by simp [enterEnded]
@[simp] theorem enterEnded_scu (s : State) : (enterEnded s).scu = s.scu := by simp [enterEnded]
@[simp] theorem enterEnded_prs (s : State) : (enterEnded s).prs = s.prs := by simp [enterEnded]
@[simp] theorem enterEnded_ltx (s : State) : (enterEnded s).ltx = s.ltx := by simp [enterEnded]
@[simp] theorem enterEnded_pending (s : State) : (enterEnded s).pending = s.pending := by simp [enterEnded]
@[simp] theorem enterEnded_free (s : State) : (enterEnded s).free = s.free := by simp [enterEnded]

/-! grant can change: rng, clt, cmp. -/
@[simp] theorem grant_suu (s : State) : (grant s).suu = s.suu := by unfold grant; (repeat' split) <;> simp
@[simp] theorem grant_sto (s : State) : (grant s).sto = s.sto := by unfold grant; (repeat' split) <;> simp
@[simp] theorem grant_lif (s : State) : (grant s).lif = s.lif := by unfold grant; (repeat' split) <;> simp
@[simp] theorem grant_lcu (s : State) : (grant s).lcu = s.lcu := by unfold grant; (repeat' split) <;> simp
@[simp] theorem grant_rck (s : State) : (grant s).rck = s.rck := by unfold grant; (repeat' split) <;> simp
@[simp] theorem grant_icu (s : State) : (grant s).icu = s.icu := by unfold grant; (repeat' split) <;> simp
@[simp] theorem grant_cht (s : State) : (grant s).cht = s.cht := by unfold grant; (repeat' split) <;> simp
@[simp] theorem grant_scu (s : State) : (grant s).scu = s.scu := by unfold grant; (repeat' split) <;> simp
@[simp] theorem grant_cnf (s : State) : (grant s).cnf = s.cnf := by unfold grant; (repeat' split) <;> simp
@[simp] theorem grant_prs (s : State) : (grant s).prs = s.prs := by unfold grant; (repeat' split) <;> simp
@[simp] theorem grant_pnl (s : State) : (grant s).pnl = s.pnl := by unfold grant; (repeat' split) <;> simp
@[simp] theorem grant_ltx (s : State) : (grant s).ltx = s.ltx := by unfold grant; (repeat' split) <;> simp
@[simp] theorem grant_pending (s : State) : (grant s).pending = s.pending := by unfold grant; (repeat' split) <;> simp
@[simp] theorem grant_free (s : State) : (grant s).free = s.free := by unfold grant; (repeat' split) <;> simp

/-! advance can change: suu, lcu, rck, icu, rng, clt, cnf, pnl, cmp. -/
@[simp] theorem advance_sto (s : State) : (advance s).sto = s.sto := by unfold advance; (repeat' split) <;> simp
@[simp] theorem advance_lif (s : State) : (advance s).lif = s.lif := by unfold advance; (repeat' split) <;> simp
@[simp] theorem advance_cht (s : State) : (advance s).cht = s.cht := by unfold advance; (repeat' split) <;> simp
@[simp] theorem advance_scu (s : State) : (advance s).scu = s.scu := by unfold advance; (repeat' split) <;> simp
@[simp] theorem advance_prs (s : State) : (advance s).prs = s.prs := by unfold advance; (repeat' split) <;> simp
@[simp] theorem advance_ltx (s : State) : (advance s).ltx = s.ltx := by unfold advance; (repeat' split) <;> simp
@[simp] theorem advance_pending (s : State) : (advance s).pending = s.pending := by unfold advance; (repeat' split) <;> simp
@[simp] theorem advance_free (s : State) : (advance s).free = s.free := by unfold advance; (repeat' split) <;> simp

/-! phaseAfterTurn can change: suu, lcu, rck, icu, rng, cnf, pnl, cmp. -/
@[simp] theorem phaseAfterTurn_sto (o : TurnOutcome) (s : State) : (phaseAfterTurn o s).sto = s.sto := by unfold phaseAfterTurn; (repeat' split) <;> simp
@[simp] theorem phaseAfterTurn_lif (o : TurnOutcome) (s : State) : (phaseAfterTurn o s).lif = s.lif := by unfold phaseAfterTurn; (repeat' split) <;> simp
@[simp] theorem phaseAfterTurn_clt (o : TurnOutcome) (s : State) : (phaseAfterTurn o s).clt = s.clt := by unfold phaseAfterTurn; (repeat' split) <;> simp
@[simp] theorem phaseAfterTurn_cht (o : TurnOutcome) (s : State) : (phaseAfterTurn o s).cht = s.cht := by unfold phaseAfterTurn; (repeat' split) <;> simp
@[simp] theorem phaseAfterTurn_scu (o : TurnOutcome) (s : State) : (phaseAfterTurn o s).scu = s.scu := by unfold phaseAfterTurn; (repeat' split) <;> simp
@[simp] theorem phaseAfterTurn_prs (o : TurnOutcome) (s : State) : (phaseAfterTurn o s).prs = s.prs := by unfold phaseAfterTurn; (repeat' split) <;> simp
@[simp] theorem phaseAfterTurn_ltx (o : TurnOutcome) (s : State) : (phaseAfterTurn o s).ltx = s.ltx := by unfold phaseAfterTurn; (repeat' split) <;> simp
@[simp] theorem phaseAfterTurn_pending (o : TurnOutcome) (s : State) : (phaseAfterTurn o s).pending = s.pending := by unfold phaseAfterTurn; (repeat' split) <;> simp
@[simp] theorem phaseAfterTurn_free (o : TurnOutcome) (s : State) : (phaseAfterTurn o s).free = s.free := by unfold phaseAfterTurn; (repeat' split) <;> simp

/-! closeTurn can change: rng, clt, cmp. -/
@[simp] theorem closeTurn_suu (t : Nat) (o : TurnOutcome) (s : State) : (closeTurn t o s).suu = s.suu := rfl
@[simp] theorem closeTurn_sto (t : Nat) (o : TurnOutcome) (s : State) : (closeTurn t o s).sto = s.sto := rfl
@[simp] theorem closeTurn_lif (t : Nat) (o : TurnOutcome) (s : State) : (closeTurn t o s).lif = s.lif := rfl
@[simp] theorem closeTurn_lcu (t : Nat) (o : TurnOutcome) (s : State) : (closeTurn t o s).lcu = s.lcu := rfl
@[simp] theorem closeTurn_rck (t : Nat) (o : TurnOutcome) (s : State) : (closeTurn t o s).rck = s.rck := rfl
@[simp] theorem closeTurn_icu (t : Nat) (o : TurnOutcome) (s : State) : (closeTurn t o s).icu = s.icu := rfl
@[simp] theorem closeTurn_cht (t : Nat) (o : TurnOutcome) (s : State) : (closeTurn t o s).cht = s.cht := rfl
@[simp] theorem closeTurn_scu (t : Nat) (o : TurnOutcome) (s : State) : (closeTurn t o s).scu = s.scu := rfl
@[simp] theorem closeTurn_cnf (t : Nat) (o : TurnOutcome) (s : State) : (closeTurn t o s).cnf = s.cnf := rfl
@[simp] theorem closeTurn_prs (t : Nat) (o : TurnOutcome) (s : State) : (closeTurn t o s).prs = s.prs := rfl
@[simp] theorem closeTurn_pnl (t : Nat) (o : TurnOutcome) (s : State) : (closeTurn t o s).pnl = s.pnl := rfl
@[simp] theorem closeTurn_ltx (t : Nat) (o : TurnOutcome) (s : State) : (closeTurn t o s).ltx = s.ltx := rfl
@[simp] theorem closeTurn_pending (t : Nat) (o : TurnOutcome) (s : State) : (closeTurn t o s).pending = s.pending := rfl
@[simp] theorem closeTurn_free (t : Nat) (o : TurnOutcome) (s : State) : (closeTurn t o s).free = s.free := rfl

/-! endTurnByPass can change: suu, lcu, rck, icu, rng, clt, cnf, pnl, cmp. -/
@[simp] theorem endTurnByPass_sto (t : Nat) (s : State) : (endTurnByPass t s).sto = s.sto := by simp [endTurnByPass]
@[simp] theorem endTurnByPass_lif (t : Nat) (s : State) : (endTurnByPass t s).lif = s.lif := by simp [endTurnByPass]
@[simp] theorem endTurnByPass_cht (t : Nat) (s : State) : (endTurnByPass t s).cht = s.cht := by simp [endTurnByPass]
@[simp] theorem endTurnByPass_scu (t : Nat) (s : State) : (endTurnByPass t s).scu = s.scu := by simp [endTurnByPass]
@[simp] theorem endTurnByPass_prs (t : Nat) (s : State) : (endTurnByPass t s).prs = s.prs := by simp [endTurnByPass]
@[simp] theorem endTurnByPass_ltx (t : Nat) (s : State) : (endTurnByPass t s).ltx = s.ltx := by simp [endTurnByPass]
@[simp] theorem endTurnByPass_pending (t : Nat) (s : State) : (endTurnByPass t s).pending = s.pending := by simp [endTurnByPass]
@[simp] theorem endTurnByPass_free (t : Nat) (s : State) : (endTurnByPass t s).free = s.free := by simp [endTurnByPass]

/-! align can change: clt, cmp. -/
@[simp] theorem align_suu (t m : Nat) (s : State) : (align t m s).suu = s.suu := by unfold align; (repeat' split) <;> simp
@[simp] theorem align_sto (t m : Nat) (s : State) : (align t m s).sto = s.sto := by unfold align; (repeat' split) <;> simp
@[simp] theorem align_lif (t m : Nat) (s : State) : (align t m s).lif = s.lif := by unfold align; (repeat' split) <;> simp
@[simp] theorem align_lcu (t m : Nat) (s : State) : (align t m s).lcu = s.lcu := by unfold align; (repeat' split) <;> simp
@[simp] theorem align_rck (t m : Nat) (s : State) : (align t m s).rck = s.rck := by unfold align; (repeat' split) <;> simp
@[simp] theorem align_icu (t m : Nat) (s : State) : (align t m s).icu = s.icu := by unfold align; (repeat' split) <;> simp
@[simp] theorem align_rng (t m : Nat) (s : State) : (align t m s).rng = s.rng := by unfold align; (repeat' split) <;> simp
@[simp] theorem align_cht (t m : Nat) (s : State) : (align t m s).cht = s.cht := by unfold align; (repeat' split) <;> simp
@[simp] theorem align_scu (t m : Nat) (s : State) : (align t m s).scu = s.scu := by unfold align; (repeat' split) <;> simp
@[simp] theorem align_cnf (t m : Nat) (s : State) : (align t m s).cnf = s.cnf := by unfold align; (repeat' split) <;> simp
@[simp] theorem align_prs (t m : Nat) (s : State) : (align t m s).prs = s.prs := by unfold align; (repeat' split) <;> simp
@[simp] theorem align_pnl (t m : Nat) (s : State) : (align t m s).pnl = s.pnl := by unfold align; (repeat' split) <;> simp
@[simp] theorem align_ltx (t m : Nat) (s : State) : (align t m s).ltx = s.ltx := by unfold align; (repeat' split) <;> simp
@[simp] theorem align_pending (t m : Nat) (s : State) : (align t m s).pending = s.pending := by unfold align; (repeat' split) <;> simp
@[simp] theorem align_free (t m : Nat) (s : State) : (align t m s).free = s.free := by unfold align; (repeat' split) <;> simp

/-! fullVerdict can change: suu, lcu, rck, icu, rng, clt, scu, cnf, pnl, cmp. -/
@[simp] theorem fullVerdict_sto (t m : Nat) (o : TurnOutcome) (c : Int) (s : State) : (fullVerdict t m o c s).sto = s.sto := by simp [fullVerdict]
@[simp] theorem fullVerdict_lif (t m : Nat) (o : TurnOutcome) (c : Int) (s : State) : (fullVerdict t m o c s).lif = s.lif := by simp [fullVerdict]
@[simp] theorem fullVerdict_cht (t m : Nat) (o : TurnOutcome) (c : Int) (s : State) : (fullVerdict t m o c s).cht = s.cht := by simp [fullVerdict]
@[simp] theorem fullVerdict_prs (t m : Nat) (o : TurnOutcome) (c : Int) (s : State) : (fullVerdict t m o c s).prs = s.prs := by simp [fullVerdict]
@[simp] theorem fullVerdict_ltx (t m : Nat) (o : TurnOutcome) (c : Int) (s : State) : (fullVerdict t m o c s).ltx = s.ltx := by simp [fullVerdict]
@[simp] theorem fullVerdict_pending (t m : Nat) (o : TurnOutcome) (c : Int) (s : State) : (fullVerdict t m o c s).pending = s.pending := by simp [fullVerdict]
@[simp] theorem fullVerdict_free (t m : Nat) (o : TurnOutcome) (c : Int) (s : State) : (fullVerdict t m o c s).free = s.free := by simp [fullVerdict]

/-! frameEnd can change: lif, lcu. -/
@[simp] theorem frameEnd_suu (s : State) : (frameEnd s).suu = s.suu := rfl
@[simp] theorem frameEnd_sto (s : State) : (frameEnd s).sto = s.sto := rfl
@[simp] theorem frameEnd_rck (s : State) : (frameEnd s).rck = s.rck := rfl
@[simp] theorem frameEnd_icu (s : State) : (frameEnd s).icu = s.icu := rfl
@[simp] theorem frameEnd_rng (s : State) : (frameEnd s).rng = s.rng := rfl
@[simp] theorem frameEnd_clt (s : State) : (frameEnd s).clt = s.clt := rfl
@[simp] theorem frameEnd_cht (s : State) : (frameEnd s).cht = s.cht := rfl
@[simp] theorem frameEnd_scu (s : State) : (frameEnd s).scu = s.scu := rfl
@[simp] theorem frameEnd_cnf (s : State) : (frameEnd s).cnf = s.cnf := rfl
@[simp] theorem frameEnd_prs (s : State) : (frameEnd s).prs = s.prs := rfl
@[simp] theorem frameEnd_pnl (s : State) : (frameEnd s).pnl = s.pnl := rfl
@[simp] theorem frameEnd_cmp (s : State) : (frameEnd s).cmp = s.cmp := rfl
@[simp] theorem frameEnd_ltx (s : State) : (frameEnd s).ltx = s.ltx := rfl
@[simp] theorem frameEnd_pending (s : State) : (frameEnd s).pending = s.pending := rfl
@[simp] theorem frameEnd_free (s : State) : (frameEnd s).free = s.free := rfl

/-! inFrame can change: lif. -/
@[simp] theorem inFrame_suu (d : Decode) (c : List CellReading) (s : State) : (inFrame d c s).suu = s.suu := rfl
@[simp] theorem inFrame_sto (d : Decode) (c : List CellReading) (s : State) : (inFrame d c s).sto = s.sto := rfl
@[simp] theorem inFrame_lcu (d : Decode) (c : List CellReading) (s : State) : (inFrame d c s).lcu = s.lcu := rfl
@[simp] theorem inFrame_rck (d : Decode) (c : List CellReading) (s : State) : (inFrame d c s).rck = s.rck := rfl
@[simp] theorem inFrame_icu (d : Decode) (c : List CellReading) (s : State) : (inFrame d c s).icu = s.icu := rfl
@[simp] theorem inFrame_rng (d : Decode) (c : List CellReading) (s : State) : (inFrame d c s).rng = s.rng := rfl
@[simp] theorem inFrame_clt (d : Decode) (c : List CellReading) (s : State) : (inFrame d c s).clt = s.clt := rfl
@[simp] theorem inFrame_cht (d : Decode) (c : List CellReading) (s : State) : (inFrame d c s).cht = s.cht := rfl
@[simp] theorem inFrame_scu (d : Decode) (c : List CellReading) (s : State) : (inFrame d c s).scu = s.scu := rfl
@[simp] theorem inFrame_cnf (d : Decode) (c : List CellReading) (s : State) : (inFrame d c s).cnf = s.cnf := rfl
@[simp] theorem inFrame_prs (d : Decode) (c : List CellReading) (s : State) : (inFrame d c s).prs = s.prs := rfl
@[simp] theorem inFrame_pnl (d : Decode) (c : List CellReading) (s : State) : (inFrame d c s).pnl = s.pnl := rfl
@[simp] theorem inFrame_cmp (d : Decode) (c : List CellReading) (s : State) : (inFrame d c s).cmp = s.cmp := rfl
@[simp] theorem inFrame_ltx (d : Decode) (c : List CellReading) (s : State) : (inFrame d c s).ltx = s.ltx := rfl
@[simp] theorem inFrame_pending (d : Decode) (c : List CellReading) (s : State) : (inFrame d c s).pending = s.pending := rfl
@[simp] theorem inFrame_free (d : Decode) (c : List CellReading) (s : State) : (inFrame d c s).free = s.free := rfl

/-! stopDriving can change: lif. -/
@[simp] theorem stopDriving_suu (c : List CellReading) (s : State) : (stopDriving c s).suu = s.suu := rfl
@[simp] theorem stopDriving_sto (c : List CellReading) (s : State) : (stopDriving c s).sto = s.sto := rfl
@[simp] theorem stopDriving_lcu (c : List CellReading) (s : State) : (stopDriving c s).lcu = s.lcu := rfl
@[simp] theorem stopDriving_rck (c : List CellReading) (s : State) : (stopDriving c s).rck = s.rck := rfl
@[simp] theorem stopDriving_icu (c : List CellReading) (s : State) : (stopDriving c s).icu = s.icu := rfl
@[simp] theorem stopDriving_rng (c : List CellReading) (s : State) : (stopDriving c s).rng = s.rng := rfl
@[simp] theorem stopDriving_clt (c : List CellReading) (s : State) : (stopDriving c s).clt = s.clt := rfl
@[simp] theorem stopDriving_cht (c : List CellReading) (s : State) : (stopDriving c s).cht = s.cht := rfl
@[simp] theorem stopDriving_scu (c : List CellReading) (s : State) : (stopDriving c s).scu = s.scu := rfl
@[simp] theorem stopDriving_cnf (c : List CellReading) (s : State) : (stopDriving c s).cnf = s.cnf := rfl
@[simp] theorem stopDriving_prs (c : List CellReading) (s : State) : (stopDriving c s).prs = s.prs := rfl
@[simp] theorem stopDriving_pnl (c : List CellReading) (s : State) : (stopDriving c s).pnl = s.pnl := rfl
@[simp] theorem stopDriving_cmp (c : List CellReading) (s : State) : (stopDriving c s).cmp = s.cmp := rfl
@[simp] theorem stopDriving_ltx (c : List CellReading) (s : State) : (stopDriving c s).ltx = s.ltx := rfl
@[simp] theorem stopDriving_pending (c : List CellReading) (s : State) : (stopDriving c s).pending = s.pending := rfl
@[simp] theorem stopDriving_free (c : List CellReading) (s : State) : (stopDriving c s).free = s.free := rfl

/-! beginReceiving can change: lif. -/
@[simp] theorem beginReceiving_suu (s : State) : (beginReceiving s).suu = s.suu := rfl
@[simp] theorem beginReceiving_sto (s : State) : (beginReceiving s).sto = s.sto := rfl
@[simp] theorem beginReceiving_lcu (s : State) : (beginReceiving s).lcu = s.lcu := rfl
@[simp] theorem beginReceiving_rck (s : State) : (beginReceiving s).rck = s.rck := rfl
@[simp] theorem beginReceiving_icu (s : State) : (beginReceiving s).icu = s.icu := rfl
@[simp] theorem beginReceiving_rng (s : State) : (beginReceiving s).rng = s.rng := rfl
@[simp] theorem beginReceiving_clt (s : State) : (beginReceiving s).clt = s.clt := rfl
@[simp] theorem beginReceiving_cht (s : State) : (beginReceiving s).cht = s.cht := rfl
@[simp] theorem beginReceiving_scu (s : State) : (beginReceiving s).scu = s.scu := rfl
@[simp] theorem beginReceiving_cnf (s : State) : (beginReceiving s).cnf = s.cnf := rfl
@[simp] theorem beginReceiving_prs (s : State) : (beginReceiving s).prs = s.prs := rfl
@[simp] theorem beginReceiving_pnl (s : State) : (beginReceiving s).pnl = s.pnl := rfl
@[simp] theorem beginReceiving_cmp (s : State) : (beginReceiving s).cmp = s.cmp := rfl
@[simp] theorem beginReceiving_ltx (s : State) : (beginReceiving s).ltx = s.ltx := rfl
@[simp] theorem beginReceiving_pending (s : State) : (beginReceiving s).pending = s.pending := rfl
@[simp] theorem beginReceiving_free (s : State) : (beginReceiving s).free = s.free := rfl

/-! edgeAges can change: lif. -/
@[simp] theorem edgeAges_suu (s : State) : (edgeAges s).suu = s.suu := rfl
@[simp] theorem edgeAges_sto (s : State) : (edgeAges s).sto = s.sto := rfl
@[simp] theorem edgeAges_lcu (s : State) : (edgeAges s).lcu = s.lcu := rfl
@[simp] theorem edgeAges_rck (s : State) : (edgeAges s).rck = s.rck := rfl
@[simp] theorem edgeAges_icu (s : State) : (edgeAges s).icu = s.icu := rfl
@[simp] theorem edgeAges_rng (s : State) : (edgeAges s).rng = s.rng := rfl
@[simp] theorem edgeAges_clt (s : State) : (edgeAges s).clt = s.clt := rfl
@[simp] theorem edgeAges_cht (s : State) : (edgeAges s).cht = s.cht := rfl
@[simp] theorem edgeAges_scu (s : State) : (edgeAges s).scu = s.scu := rfl
@[simp] theorem edgeAges_cnf (s : State) : (edgeAges s).cnf = s.cnf := rfl
@[simp] theorem edgeAges_prs (s : State) : (edgeAges s).prs = s.prs := rfl
@[simp] theorem edgeAges_pnl (s : State) : (edgeAges s).pnl = s.pnl := rfl
@[simp] theorem edgeAges_cmp (s : State) : (edgeAges s).cmp = s.cmp := rfl
@[simp] theorem edgeAges_ltx (s : State) : (edgeAges s).ltx = s.ltx := rfl
@[simp] theorem edgeAges_pending (s : State) : (edgeAges s).pending = s.pending := rfl
@[simp] theorem edgeAges_free (s : State) : (edgeAges s).free = s.free := rfl

/-! leaveFrame can change: lif. -/
@[simp] theorem leaveFrame_suu (s : State) : (leaveFrame s).suu = s.suu := rfl
@[simp] theorem leaveFrame_sto (s : State) : (leaveFrame s).sto = s.sto := rfl
@[simp] theorem leaveFrame_lcu (s : State) : (leaveFrame s).lcu = s.lcu := rfl
@[simp] theorem leaveFrame_rck (s : State) : (leaveFrame s).rck = s.rck := rfl
@[simp] theorem leaveFrame_icu (s : State) : (leaveFrame s).icu = s.icu := rfl
@[simp] theorem leaveFrame_rng (s : State) : (leaveFrame s).rng = s.rng := rfl
@[simp] theorem leaveFrame_clt (s : State) : (leaveFrame s).clt = s.clt := rfl
@[simp] theorem leaveFrame_cht (s : State) : (leaveFrame s).cht = s.cht := rfl
@[simp] theorem leaveFrame_scu (s : State) : (leaveFrame s).scu = s.scu := rfl
@[simp] theorem leaveFrame_cnf (s : State) : (leaveFrame s).cnf = s.cnf := rfl
@[simp] theorem leaveFrame_prs (s : State) : (leaveFrame s).prs = s.prs := rfl
@[simp] theorem leaveFrame_pnl (s : State) : (leaveFrame s).pnl = s.pnl := rfl
@[simp] theorem leaveFrame_cmp (s : State) : (leaveFrame s).cmp = s.cmp := rfl
@[simp] theorem leaveFrame_ltx (s : State) : (leaveFrame s).ltx = s.ltx := rfl
@[simp] theorem leaveFrame_pending (s : State) : (leaveFrame s).pending = s.pending := rfl
@[simp] theorem leaveFrame_free (s : State) : (leaveFrame s).free = s.free := rfl

/-! lineDominant can change: suu, lif, lcu. -/
@[simp] theorem lineDominant_sto (n : Nat) (s : State) : (lineDominant n s).sto = s.sto := rfl
@[simp] theorem lineDominant_rck (n : Nat) (s : State) : (lineDominant n s).rck = s.rck := rfl
@[simp] theorem lineDominant_icu (n : Nat) (s : State) : (lineDominant n s).icu = s.icu := rfl
@[simp] theorem lineDominant_rng (n : Nat) (s : State) : (lineDominant n s).rng = s.rng := rfl
@[simp] theorem lineDominant_clt (n : Nat) (s : State) : (lineDominant n s).clt = s.clt := rfl
@[simp] theorem lineDominant_cht (n : Nat) (s : State) : (lineDominant n s).cht = s.cht := rfl
@[simp] theorem lineDominant_scu (n : Nat) (s : State) : (lineDominant n s).scu = s.scu := rfl
@[simp] theorem lineDominant_cnf (n : Nat) (s : State) : (lineDominant n s).cnf = s.cnf := rfl
@[simp] theorem lineDominant_prs (n : Nat) (s : State) : (lineDominant n s).prs = s.prs := rfl
@[simp] theorem lineDominant_pnl (n : Nat) (s : State) : (lineDominant n s).pnl = s.pnl := rfl
@[simp] theorem lineDominant_cmp (n : Nat) (s : State) : (lineDominant n s).cmp = s.cmp := rfl
@[simp] theorem lineDominant_ltx (n : Nat) (s : State) : (lineDominant n s).ltx = s.ltx := rfl
@[simp] theorem lineDominant_pending (n : Nat) (s : State) : (lineDominant n s).pending = s.pending := rfl
@[simp] theorem lineDominant_free (n : Nat) (s : State) : (lineDominant n s).free = s.free := rfl

/-! lineRecessive can change: suu, lif, lcu. -/
@[simp] theorem lineRecessive_sto (n : Nat) (s : State) : (lineRecessive n s).sto = s.sto := rfl
@[simp] theorem lineRecessive_rck (n : Nat) (s : State) : (lineRecessive n s).rck = s.rck := rfl
@[simp] theorem lineRecessive_icu (n : Nat) (s : State) : (lineRecessive n s).icu = s.icu := rfl
@[simp] theorem lineRecessive_rng (n : Nat) (s : State) : (lineRecessive n s).rng = s.rng := rfl
@[simp] theorem lineRecessive_clt (n : Nat) (s : State) : (lineRecessive n s).clt = s.clt := rfl
@[simp] theorem lineRecessive_cht (n : Nat) (s : State) : (lineRecessive n s).cht = s.cht := rfl
@[simp] theorem lineRecessive_scu (n : Nat) (s : State) : (lineRecessive n s).scu = s.scu := rfl
@[simp] theorem lineRecessive_cnf (n : Nat) (s : State) : (lineRecessive n s).cnf = s.cnf := rfl
@[simp] theorem lineRecessive_prs (n : Nat) (s : State) : (lineRecessive n s).prs = s.prs := rfl
@[simp] theorem lineRecessive_pnl (n : Nat) (s : State) : (lineRecessive n s).pnl = s.pnl := rfl
@[simp] theorem lineRecessive_cmp (n : Nat) (s : State) : (lineRecessive n s).cmp = s.cmp := rfl
@[simp] theorem lineRecessive_ltx (n : Nat) (s : State) : (lineRecessive n s).ltx = s.ltx := rfl
@[simp] theorem lineRecessive_pending (n : Nat) (s : State) : (lineRecessive n s).pending = s.pending := rfl
@[simp] theorem lineRecessive_free (n : Nat) (s : State) : (lineRecessive n s).free = s.free := rfl

/-! reachIdle can change: suu, lif, lcu, icu, rng, cnf, pnl, cmp. -/
@[simp] theorem reachIdle_sto (s : State) : (reachIdle s).sto = s.sto := by unfold reachIdle; dsimp only; (repeat' split) <;> simp
@[simp] theorem reachIdle_rck (s : State) : (reachIdle s).rck = s.rck := by unfold reachIdle; dsimp only; (repeat' split) <;> simp
@[simp] theorem reachIdle_clt (s : State) : (reachIdle s).clt = s.clt := by unfold reachIdle; dsimp only; (repeat' split) <;> simp
@[simp] theorem reachIdle_cht (s : State) : (reachIdle s).cht = s.cht := by unfold reachIdle; dsimp only; (repeat' split) <;> simp
@[simp] theorem reachIdle_scu (s : State) : (reachIdle s).scu = s.scu := by unfold reachIdle; dsimp only; (repeat' split) <;> simp
@[simp] theorem reachIdle_prs (s : State) : (reachIdle s).prs = s.prs := by unfold reachIdle; dsimp only; (repeat' split) <;> simp
@[simp] theorem reachIdle_ltx (s : State) : (reachIdle s).ltx = s.ltx := by unfold reachIdle; dsimp only; (repeat' split) <;> simp
@[simp] theorem reachIdle_pending (s : State) : (reachIdle s).pending = s.pending := by unfold reachIdle; dsimp only; (repeat' split) <;> simp
@[simp] theorem reachIdle_free (s : State) : (reachIdle s).free = s.free := by unfold reachIdle; dsimp only; (repeat' split) <;> simp

/-! breakAttempt can change: suu, lcu, icu, rng, cnf, pnl, cmp. -/
@[simp] theorem breakAttempt_sto (e : AttemptEnd) (s : State) : (breakAttempt e s).sto = s.sto := by simp [breakAttempt]
@[simp] theorem breakAttempt_lif (e : AttemptEnd) (s : State) : (breakAttempt e s).lif = s.lif := by simp [breakAttempt]
@[simp] theorem breakAttempt_rck (e : AttemptEnd) (s : State) : (breakAttempt e s).rck = s.rck := by simp [breakAttempt]
@[simp] theorem breakAttempt_clt (e : AttemptEnd) (s : State) : (breakAttempt e s).clt = s.clt := by simp [breakAttempt]
@[simp] theorem breakAttempt_cht (e : AttemptEnd) (s : State) : (breakAttempt e s).cht = s.cht := by simp [breakAttempt]
@[simp] theorem breakAttempt_scu (e : AttemptEnd) (s : State) : (breakAttempt e s).scu = s.scu := by simp [breakAttempt]
@[simp] theorem breakAttempt_prs (e : AttemptEnd) (s : State) : (breakAttempt e s).prs = s.prs := by simp [breakAttempt]
@[simp] theorem breakAttempt_ltx (e : AttemptEnd) (s : State) : (breakAttempt e s).ltx = s.ltx := by simp [breakAttempt]
@[simp] theorem breakAttempt_pending (e : AttemptEnd) (s : State) : (breakAttempt e s).pending = s.pending := by simp [breakAttempt]
@[simp] theorem breakAttempt_free (e : AttemptEnd) (s : State) : (breakAttempt e s).free = s.free := by simp [breakAttempt]

/-! takenAtLine can change: suu, lif, lcu, icu, rng, cnf, pnl, cmp. -/
@[simp] theorem takenAtLine_sto (s : State) : (takenAtLine s).sto = s.sto := by unfold takenAtLine; (repeat' split) <;> simp
@[simp] theorem takenAtLine_rck (s : State) : (takenAtLine s).rck = s.rck := by unfold takenAtLine; (repeat' split) <;> simp
@[simp] theorem takenAtLine_clt (s : State) : (takenAtLine s).clt = s.clt := by unfold takenAtLine; (repeat' split) <;> simp
@[simp] theorem takenAtLine_cht (s : State) : (takenAtLine s).cht = s.cht := by unfold takenAtLine; (repeat' split) <;> simp
@[simp] theorem takenAtLine_scu (s : State) : (takenAtLine s).scu = s.scu := by unfold takenAtLine; (repeat' split) <;> simp
@[simp] theorem takenAtLine_prs (s : State) : (takenAtLine s).prs = s.prs := by unfold takenAtLine; (repeat' split) <;> simp
@[simp] theorem takenAtLine_ltx (s : State) : (takenAtLine s).ltx = s.ltx := by unfold takenAtLine; (repeat' split) <;> simp
@[simp] theorem takenAtLine_pending (s : State) : (takenAtLine s).pending = s.pending := by unfold takenAtLine; (repeat' split) <;> simp
@[simp] theorem takenAtLine_free (s : State) : (takenAtLine s).free = s.free := by unfold takenAtLine; (repeat' split) <;> simp

/-! setEntry can change: scu, prs. -/
@[simp] theorem setEntry_suu (d : Nat) (f : PresEntry → PresEntry) (s : State) : (setEntry d f s).suu = s.suu := by unfold setEntry; dsimp only; (repeat' split) <;> simp
@[simp] theorem setEntry_sto (d : Nat) (f : PresEntry → PresEntry) (s : State) : (setEntry d f s).sto = s.sto := by unfold setEntry; dsimp only; (repeat' split) <;> simp
@[simp] theorem setEntry_lif (d : Nat) (f : PresEntry → PresEntry) (s : State) : (setEntry d f s).lif = s.lif := by unfold setEntry; dsimp only; (repeat' split) <;> simp
@[simp] theorem setEntry_lcu (d : Nat) (f : PresEntry → PresEntry) (s : State) : (setEntry d f s).lcu = s.lcu := by unfold setEntry; dsimp only; (repeat' split) <;> simp
@[simp] theorem setEntry_rck (d : Nat) (f : PresEntry → PresEntry) (s : State) : (setEntry d f s).rck = s.rck := by unfold setEntry; dsimp only; (repeat' split) <;> simp
@[simp] theorem setEntry_icu (d : Nat) (f : PresEntry → PresEntry) (s : State) : (setEntry d f s).icu = s.icu := by unfold setEntry; dsimp only; (repeat' split) <;> simp
@[simp] theorem setEntry_rng (d : Nat) (f : PresEntry → PresEntry) (s : State) : (setEntry d f s).rng = s.rng := by unfold setEntry; dsimp only; (repeat' split) <;> simp
@[simp] theorem setEntry_clt (d : Nat) (f : PresEntry → PresEntry) (s : State) : (setEntry d f s).clt = s.clt := by unfold setEntry; dsimp only; (repeat' split) <;> simp
@[simp] theorem setEntry_cht (d : Nat) (f : PresEntry → PresEntry) (s : State) : (setEntry d f s).cht = s.cht := by unfold setEntry; dsimp only; (repeat' split) <;> simp
@[simp] theorem setEntry_cnf (d : Nat) (f : PresEntry → PresEntry) (s : State) : (setEntry d f s).cnf = s.cnf := by unfold setEntry; dsimp only; (repeat' split) <;> simp
@[simp] theorem setEntry_pnl (d : Nat) (f : PresEntry → PresEntry) (s : State) : (setEntry d f s).pnl = s.pnl := by unfold setEntry; dsimp only; (repeat' split) <;> simp
@[simp] theorem setEntry_cmp (d : Nat) (f : PresEntry → PresEntry) (s : State) : (setEntry d f s).cmp = s.cmp := by unfold setEntry; dsimp only; (repeat' split) <;> simp
@[simp] theorem setEntry_ltx (d : Nat) (f : PresEntry → PresEntry) (s : State) : (setEntry d f s).ltx = s.ltx := by unfold setEntry; dsimp only; (repeat' split) <;> simp
@[simp] theorem setEntry_pending (d : Nat) (f : PresEntry → PresEntry) (s : State) : (setEntry d f s).pending = s.pending := by unfold setEntry; dsimp only; (repeat' split) <;> simp
@[simp] theorem setEntry_free (d : Nat) (f : PresEntry → PresEntry) (s : State) : (setEntry d f s).free = s.free := by unfold setEntry; dsimp only; (repeat' split) <;> simp

/-! markHeard can change: scu, prs, cmp. -/
@[simp] theorem markHeard_suu (d r : Nat) (s : State) : (markHeard d r s).suu = s.suu := by simp [markHeard]
@[simp] theorem markHeard_sto (d r : Nat) (s : State) : (markHeard d r s).sto = s.sto := by simp [markHeard]
@[simp] theorem markHeard_lif (d r : Nat) (s : State) : (markHeard d r s).lif = s.lif := by simp [markHeard]
@[simp] theorem markHeard_lcu (d r : Nat) (s : State) : (markHeard d r s).lcu = s.lcu := by simp [markHeard]
@[simp] theorem markHeard_rck (d r : Nat) (s : State) : (markHeard d r s).rck = s.rck := by simp [markHeard]
@[simp] theorem markHeard_icu (d r : Nat) (s : State) : (markHeard d r s).icu = s.icu := by simp [markHeard]
@[simp] theorem markHeard_rng (d r : Nat) (s : State) : (markHeard d r s).rng = s.rng := by simp [markHeard]
@[simp] theorem markHeard_clt (d r : Nat) (s : State) : (markHeard d r s).clt = s.clt := by simp [markHeard]
@[simp] theorem markHeard_cht (d r : Nat) (s : State) : (markHeard d r s).cht = s.cht := by simp [markHeard]
@[simp] theorem markHeard_cnf (d r : Nat) (s : State) : (markHeard d r s).cnf = s.cnf := by simp [markHeard]
@[simp] theorem markHeard_pnl (d r : Nat) (s : State) : (markHeard d r s).pnl = s.pnl := by simp [markHeard]
@[simp] theorem markHeard_ltx (d r : Nat) (s : State) : (markHeard d r s).ltx = s.ltx := by simp [markHeard]
@[simp] theorem markHeard_pending (d r : Nat) (s : State) : (markHeard d r s).pending = s.pending := by simp [markHeard]
@[simp] theorem markHeard_free (d r : Nat) (s : State) : (markHeard d r s).free = s.free := by simp [markHeard]

/-! describe can change: scu, prs, cmp. -/
@[simp] theorem describe_suu (d : Nat) (r m : Byte) (x : PresEntry → PresEntry) (s : State) : (describe d r m x s).suu = s.suu := by simp [describe]
@[simp] theorem describe_sto (d : Nat) (r m : Byte) (x : PresEntry → PresEntry) (s : State) : (describe d r m x s).sto = s.sto := by simp [describe]
@[simp] theorem describe_lif (d : Nat) (r m : Byte) (x : PresEntry → PresEntry) (s : State) : (describe d r m x s).lif = s.lif := by simp [describe]
@[simp] theorem describe_lcu (d : Nat) (r m : Byte) (x : PresEntry → PresEntry) (s : State) : (describe d r m x s).lcu = s.lcu := by simp [describe]
@[simp] theorem describe_rck (d : Nat) (r m : Byte) (x : PresEntry → PresEntry) (s : State) : (describe d r m x s).rck = s.rck := by simp [describe]
@[simp] theorem describe_icu (d : Nat) (r m : Byte) (x : PresEntry → PresEntry) (s : State) : (describe d r m x s).icu = s.icu := by simp [describe]
@[simp] theorem describe_rng (d : Nat) (r m : Byte) (x : PresEntry → PresEntry) (s : State) : (describe d r m x s).rng = s.rng := by simp [describe]
@[simp] theorem describe_clt (d : Nat) (r m : Byte) (x : PresEntry → PresEntry) (s : State) : (describe d r m x s).clt = s.clt := by simp [describe]
@[simp] theorem describe_cht (d : Nat) (r m : Byte) (x : PresEntry → PresEntry) (s : State) : (describe d r m x s).cht = s.cht := by simp [describe]
@[simp] theorem describe_cnf (d : Nat) (r m : Byte) (x : PresEntry → PresEntry) (s : State) : (describe d r m x s).cnf = s.cnf := by simp [describe]
@[simp] theorem describe_pnl (d : Nat) (r m : Byte) (x : PresEntry → PresEntry) (s : State) : (describe d r m x s).pnl = s.pnl := by simp [describe]
@[simp] theorem describe_ltx (d : Nat) (r m : Byte) (x : PresEntry → PresEntry) (s : State) : (describe d r m x s).ltx = s.ltx := by simp [describe]
@[simp] theorem describe_pending (d : Nat) (r m : Byte) (x : PresEntry → PresEntry) (s : State) : (describe d r m x s).pending = s.pending := by simp [describe]
@[simp] theorem describe_free (d : Nat) (r m : Byte) (x : PresEntry → PresEntry) (s : State) : (describe d r m x s).free = s.free := by simp [describe]

/-! checkDuplicate can change: suu, lcu, icu, rng, cnf, pnl, cmp. -/
@[simp] theorem checkDuplicate_sto (b : Bool) (d : Nat) (s : State) : (checkDuplicate b d s).sto = s.sto := by unfold checkDuplicate; (repeat' split) <;> simp
@[simp] theorem checkDuplicate_lif (b : Bool) (d : Nat) (s : State) : (checkDuplicate b d s).lif = s.lif := by unfold checkDuplicate; (repeat' split) <;> simp
@[simp] theorem checkDuplicate_rck (b : Bool) (d : Nat) (s : State) : (checkDuplicate b d s).rck = s.rck := by unfold checkDuplicate; (repeat' split) <;> simp
@[simp] theorem checkDuplicate_clt (b : Bool) (d : Nat) (s : State) : (checkDuplicate b d s).clt = s.clt := by unfold checkDuplicate; (repeat' split) <;> simp
@[simp] theorem checkDuplicate_cht (b : Bool) (d : Nat) (s : State) : (checkDuplicate b d s).cht = s.cht := by unfold checkDuplicate; (repeat' split) <;> simp
@[simp] theorem checkDuplicate_scu (b : Bool) (d : Nat) (s : State) : (checkDuplicate b d s).scu = s.scu := by unfold checkDuplicate; (repeat' split) <;> simp
@[simp] theorem checkDuplicate_prs (b : Bool) (d : Nat) (s : State) : (checkDuplicate b d s).prs = s.prs := by unfold checkDuplicate; (repeat' split) <;> simp
@[simp] theorem checkDuplicate_ltx (b : Bool) (d : Nat) (s : State) : (checkDuplicate b d s).ltx = s.ltx := by unfold checkDuplicate; (repeat' split) <;> simp
@[simp] theorem checkDuplicate_pending (b : Bool) (d : Nat) (s : State) : (checkDuplicate b d s).pending = s.pending := by unfold checkDuplicate; (repeat' split) <;> simp
@[simp] theorem checkDuplicate_free (b : Bool) (d : Nat) (s : State) : (checkDuplicate b d s).free = s.free := by unfold checkDuplicate; (repeat' split) <;> simp

/-! answer can change: cmp, free. -/
@[simp] theorem answer_suu (c : Byte) (rc : ReplyCode) (b : List Byte) (s : State) : (answer c rc b s).suu = s.suu := rfl
@[simp] theorem answer_sto (c : Byte) (rc : ReplyCode) (b : List Byte) (s : State) : (answer c rc b s).sto = s.sto := rfl
@[simp] theorem answer_lif (c : Byte) (rc : ReplyCode) (b : List Byte) (s : State) : (answer c rc b s).lif = s.lif := rfl
@[simp] theorem answer_lcu (c : Byte) (rc : ReplyCode) (b : List Byte) (s : State) : (answer c rc b s).lcu = s.lcu := rfl
@[simp] theorem answer_rck (c : Byte) (rc : ReplyCode) (b : List Byte) (s : State) : (answer c rc b s).rck = s.rck := rfl
@[simp] theorem answer_icu (c : Byte) (rc : ReplyCode) (b : List Byte) (s : State) : (answer c rc b s).icu = s.icu := rfl
@[simp] theorem answer_rng (c : Byte) (rc : ReplyCode) (b : List Byte) (s : State) : (answer c rc b s).rng = s.rng := rfl
@[simp] theorem answer_clt (c : Byte) (rc : ReplyCode) (b : List Byte) (s : State) : (answer c rc b s).clt = s.clt := rfl
@[simp] theorem answer_cht (c : Byte) (rc : ReplyCode) (b : List Byte) (s : State) : (answer c rc b s).cht = s.cht := rfl
@[simp] theorem answer_scu (c : Byte) (rc : ReplyCode) (b : List Byte) (s : State) : (answer c rc b s).scu = s.scu := rfl
@[simp] theorem answer_cnf (c : Byte) (rc : ReplyCode) (b : List Byte) (s : State) : (answer c rc b s).cnf = s.cnf := rfl
@[simp] theorem answer_prs (c : Byte) (rc : ReplyCode) (b : List Byte) (s : State) : (answer c rc b s).prs = s.prs := rfl
@[simp] theorem answer_pnl (c : Byte) (rc : ReplyCode) (b : List Byte) (s : State) : (answer c rc b s).pnl = s.pnl := rfl
@[simp] theorem answer_ltx (c : Byte) (rc : ReplyCode) (b : List Byte) (s : State) : (answer c rc b s).ltx = s.ltx := rfl
@[simp] theorem answer_pending (c : Byte) (rc : ReplyCode) (b : List Byte) (s : State) : (answer c rc b s).pending = s.pending := rfl

end Sys2Proof.Machine
end

