-- ==== Sys2Proof/Laws/Outputs.lean ====
section
/-! SUPPORT. What the end of every step does: `when` in its two cases, and the outputs that `refresh` leaves. -/

namespace Sys2Proof.Machine

open Sys2Proof.Safety

theorem when_occurs {b : Bool} (f : State → State) (s : State) (h : b = true) : when b f s = .next (refresh (f s)) := by
  simp [when, h]

theorem when_not_occurs {b : Bool} (f : State → State) (s : State) (h : b = false) : when b f s = .next s := by
  simp [when, h]

/-- Every meaning built on `when` answers one of two next states. -/
theorem when_next (b : Bool) (f : State → State) (s : State) :
    when b f s = .next (refresh (f s)) ∨ when b f s = .next s := by
  cases b <;> simp [when]

@[simp] theorem sendContent_content (c : Content4) (p : Pnl) : (sendContent c p).content = c := by
  unfold sendContent; split <;> rfl

@[simp] theorem sendContent_lamps (c : Content4) (p : Pnl) : (sendContent c p).lamps = p.lamps := by
  unfold sendContent; split <;> rfl

@[simp] theorem sendContent_fault (c : Content4) (p : Pnl) : (sendContent c p).fault = p.fault := by
  unfold sendContent; split <;> rfl

@[simp] theorem sendContent_lampOut (c : Content4) (p : Pnl) : (sendContent c p).lampOut = p.lampOut := by
  unfold sendContent; split <;> rfl

@[simp] theorem sendContent_flash (c : Content4) (p : Pnl) : (sendContent c p).flash = p.flash := by
  unfold sendContent; split <;> rfl

@[simp] theorem sendContent_blink (c : Content4) (p : Pnl) : (sendContent c p).blink = p.blink := by
  unfold sendContent; split <;> rfl

@[simp] theorem refresh_flash (s : State) : (refresh s).pnl.flash = s.pnl.flash := by simp [refresh, panelOf]

@[simp] theorem refresh_blink (s : State) : (refresh s).pnl.blink = s.pnl.blink := by simp [refresh, panelOf]

@[simp] theorem refresh_cmp (s : State) :
    (refresh s).cmp = { s.cmp with irqN := irqLevel s.cmp.flags s.cmp.mask } := rfl

@[simp] theorem refresh_content (s : State) : (refresh s).pnl.content = contentOf s := by simp [refresh, panelOf]

/-- The desk phase reads no output. -/
@[simp] theorem deskPhase_refresh (s : State) : deskPhase (refresh s) = deskPhase s := rfl

@[simp] theorem idleFigure_refresh (s : State) : idleFigure (refresh s) = idleFigure s := by
  simp [idleFigure]

@[simp] theorem deskContent_refresh (s : State) (p : DeskPhase) : deskContent (refresh s) p = deskContent s p := by
  cases p <;> first | rfl | exact idleFigure_refresh s

/-- The display content reads no output. -/
@[simp] theorem contentOf_refresh (s : State) : contentOf (refresh s) = contentOf s := by
  simp [contentOf]

/-- The lamp patterns read no output. -/
@[simp] theorem lampsOf_refresh (s : State) : lampsOf (refresh s) = lampsOf s := rfl

@[simp] theorem faultPattern_refresh (s : State) : faultPattern (refresh s) = faultPattern s := by
  unfold faultPattern; rw [refresh_flash]; rfl

/-- What the station drives reads no output. -/
@[simp] theorem driveOf_refresh (s : State) : driveOf (refresh s) = driveOf s := rfl

@[simp] theorem refresh_ltx (s : State) : (refresh s).ltx = driveOf s := rfl

/-- A content not yet sent has an update running before it (R177). -/
theorem sendContent_sent (c : Content4) (p : Pnl) :
    c = (sendContent c p).lastSent ∨ (sendContent c p).update.on = true := by
  unfold sendContent
  split
  · exact .inl rfl
  · by_cases h : c = p.lastSent
    · exact .inl h
    · right
      simp_all

/-- The outputs after a refresh are those of the state. -/
theorem refresh_outputs (s : State) : OutputsAgree (refresh s) := by
  refine ⟨?_, ?_, ?_, ?_, ?_, rfl, by simp⟩
  · rw [lampsOf_refresh]; simp [refresh, panelOf]
  · rw [faultPattern_refresh]; simp [refresh, panelOf]
  · simp [refresh, panelOf]
  · rw [contentOf_refresh, refresh_content]
  · rw [refresh_content]; simpa [refresh, panelOf] using sendContent_sent (contentOf s) _

/-- The display after a refresh follows its content. -/
theorem refresh_display (s : State) : DisplayFollows s (refresh s) := by
  unfold DisplayFollows
  rw [refresh_content]
  simp only [refresh, panelOf, State.withLtx_pnl, State.withCmp_pnl, State.withPnl_pnl]
  unfold sendContent
  split <;> simp_all

/-- The frame of a step that ends in a refresh of u: the untouched parts of u, its flags, its queue of commands. -/
theorem stepFrame_refresh (changed : List Block) (raised : BitVec 14) (s u : State)
    (h : ∀ b, b ∉ changed → b ≠ .pnl → b ≠ .cmp → b.same s (refresh u)) (hp : u.pnl = s.pnl)
    (hc : u.cmp = { s.cmp with flags := s.cmp.flags ||| raised }) (hq : u.pending = s.pending) :
    StepFrame changed raised s (refresh u) := by
  refine ⟨fun b hb => ?_, by simp [hc], by simp [hq], refresh_outputs u⟩
  by_cases h1 : b = .pnl
  · subst h1
    refine ⟨by simp [hp], by simp [hp], ?_⟩
    have hd := refresh_display u
    unfold DisplayFollows at *
    rw [hp] at hd
    exact hd
  · by_cases h2 : b = .cmp
    · subst h2; simp [Block.same, hc]
    · exact h b hb h1 h2

end Sys2Proof.Machine
end

