-- ==== Sys2Proof/Laws/Attempts.lean ====
section
/-! SUPPORT. What the end of a plain attempt and a hand-over do, once for all. -/

namespace Sys2Proof.Machine

open Sys2Proof.Safety

/-- A sound queue holds at most one frame in attempt. -/
theorem queueSound_atMostOne (s : State) (hq : QueueSound s) : s.lcu.queue.countP QFrame.inAttempt ≤ 1 := by
  obtain ⟨-, -, ⟨-, -, h2⟩, -, -⟩ := hq
  have h3 : inAttemptCount s ≤ 1 := by rw [h2]; cases attemptState s.lcu.tx <;> simp
  exact h3

/-- In a list with at most one frame in attempt, the first found is the only one. -/
theorem find_attempt_unique (q : List QFrame) (f x : QFrame) (h : q.countP QFrame.inAttempt ≤ 1)
    (hf : q.find? QFrame.inAttempt = some f) (hx : x ∈ q) (hxa : x.inAttempt = true) : x = f := by
  induction q with
  | nil => simp at hx
  | cons a l ih =>
    cases ha : a.inAttempt with
    | true =>
      rw [List.find?_cons_of_pos (by simpa using ha)] at hf
      cases hf
      rw [List.countP_cons_of_pos ha] at h
      have h0 : ∀ y ∈ l, ¬ y.inAttempt = true := List.countP_eq_zero.mp (by omega)
      rcases List.mem_cons.mp hx with hx | hx
      · exact hx
      · exact absurd hxa (h0 x hx)
    | false =>
      rw [List.find?_cons_of_neg (by simp [ha])] at hf
      rw [List.countP_cons_of_neg (by simp [ha])] at h
      rcases List.mem_cons.mp hx with hx | hx
      · rw [hx, ha] at hxa; cases hxa
      · exact ih h hf hx

/-- Two frames of a queue in class order that have one place are one frame. -/
theorem place_unique (q : List QFrame) (x y : QFrame) (h : (q.map fun f => f.place.index).Pairwise (· < ·)) (hx : x ∈ q)
    (hy : y ∈ q) (hxy : x.place = y.place) : x = y := by
  rw [List.pairwise_map] at h
  by_contra hne
  have hr : ∀ a b : QFrame, a.place.index < b.place.index → a.place ≠ b.place := by
    intro a b hab he; rw [he] at hab; omega
  induction q with
  | nil => simp at hx
  | cons a l ih =>
    obtain ⟨h1, h2⟩ := List.pairwise_cons.mp h
    rcases List.mem_cons.mp hx with hx' | hx' <;> rcases List.mem_cons.mp hy with hy' | hy'
    · exact hne (hx'.trans hy'.symm)
    · exact hr _ _ (h1 y hy') (hx' ▸ hxy)
    · exact hr _ _ (h1 x hx') (hy' ▸ hxy.symm)
    · exact ih h2 hx' hy'

/-- In a sound queue a change of the place of the frame in attempt changes the frame in attempt alone. -/
theorem modifyAt_attempted (g : QFrame → QFrame) (s : State) (f : QFrame) (hq : QueueSound s) (hf : attempted s = some f) :
    modifyAt f.place g s.lcu.queue = s.lcu.queue.map fun x => if x.inAttempt then g x else x := by
  have hmem : f ∈ s.lcu.queue := List.mem_of_find?_eq_some hf
  have hfa : f.inAttempt = true := by simpa using List.find?_some hf
  refine List.map_congr_left fun x hx => ?_
  by_cases hxa : x.inAttempt = true
  · have hxf := find_attempt_unique _ f x (queueSound_atMostOne s hq) hf hx hxa
    rw [if_pos (by rw [hxf]), if_pos hxa]
  · have hxf : x.place ≠ f.place := by
      intro he
      rw [place_unique _ x f hq.1 hx hmem he] at hxa
      exact hxa hfa
    rw [if_neg hxf, if_neg hxa]

/-- The end of a plain attempt that is neither taken nor the fourth to be counted (R41, R42). -/
theorem endAttempt_plain (e : AttemptEnd) (s : State) (f : QFrame) (hq : QueueSound s) (hp : PlainAttempt f s)
    (he : e ≠ .taken) (hc : e.counted = true → f.attempts < 3) :
    endAttempt e s =
      s.withLcu
        { s.lcu with
          queue := ended (if e.counted then 1 else 0) s.lcu.queue, tx := .waiting,
          history := entered [.waiting] s.lcu.history } := by
  obtain ⟨ha, hw, hpd, ht⟩ := hp
  have hcount : ¬(e.counted = true ∧ Config.maxAttempts ≤ countAfter e f) := by
    rintro ⟨h1, h2⟩
    have := hc h1
    simp [countAfter, h1, Config.maxAttempts] at h2
    omega
  have htell : ∀ b (x : State), tellPage f b x = x := by
    intro b x
    unfold tellPage
    split
    · rename_i p hpl; exact absurd hpl (ht p)
    · rfl
  have hq' : modifyAt f.place (fun g => { g with inAttempt := false, attempts := countAfter e f }) s.lcu.queue =
      ended (if e.counted then 1 else 0) s.lcu.queue := by
    rw [modifyAt_attempted _ s f hq ha]
    unfold ended
    refine List.map_congr_left fun x hx => ?_
    split
    · rename_i hx2
      have hxf : x = f := find_attempt_unique _ f x (queueSound_atMostOne s hq) ha hx hx2
      subst hxf
      unfold countAfter
      split <;> simp
    · rfl
  have hne : (ended (if e.counted then 1 else 0) s.lcu.queue).isEmpty = false := by
    have : f ∈ s.lcu.queue := List.mem_of_find?_eq_some ha
    unfold ended
    cases hql : s.lcu.queue with
    | nil => rw [hql] at this; simp at this
    | cons a l => rfl
  unfold endAttempt resolve
  rw [ha]
  simp only
  unfold resolveAttempt
  rw [if_neg he, if_neg (by simp [hw]), hpd]
  simp only
  rw [if_neg hcount, htell, hq']
  have hr : (TxState.waiting == TxState.recovering) = false := rfl
  simp [settleTx, enterTx, setQueue, hne, entered, hr, State.withLcu]

end Sys2Proof.Machine
end

