-- ==== Sys2Proof/Laws/Line.lean ====
section
/-! SUPPORT. What the line interface does at an edge and at a fall, what a station drives, and how a new frame begins, once for
all. -/

namespace Sys2Proof.Machine

open Sys2Proof.Safety

/-! ### Level changes at the cells (R17, R18) -/

/-- In HUNT an edge opens a pulse for an objection run alone (R30). -/
theorem edge_hunt (x : Lif) (ns : Nat) (h : x.decode = .hunt) : x.edge ns = { x with opened := x.run } := by
  simp [Lif.edge, h]

/-- Inside a frame an edge is one at the cells. -/
theorem edge_inside (x : Lif) (ns : Nat) (h : x.decode ≠ .hunt) : x.edge ns = x.edgeInFrame (x.since + ns) := by
  unfold Lif.edge
  split
  · contradiction
  · rfl
  · rfl

/-- An edge later than 7.0 µs and no later than 9.0 µs opens the next cell (R17). -/
theorem edgeInFrame_opens (x : Lif) (t : Nat) (h1 : 7000 < t) (h2 : t ≤ 9000) :
    x.edgeInFrame t = { x with since := 0, opened := true } := by
  simp [Lif.edgeInFrame, Config.earlyEdgeNs, Config.lateEdgeNs, h2, Nat.not_le.mpr h1]

/-- An edge later than 9.0 µs opens none: the cell is missing (R18). -/
theorem edgeInFrame_late (x : Lif) (t : Nat) (h : 9000 < t) : x.edgeInFrame t = { x with since := t, opened := false } := by
  have h1 : ¬ t ≤ 7000 := by omega
  have h2 : ¬ t ≤ 9000 := by omega
  simp [Lif.edgeInFrame, Config.earlyEdgeNs, Config.lateEdgeNs, h1, h2]

/-- An edge up to 7.0 µs after the boundary spoils the cell in which it falls (R18). -/
theorem edgeInFrame_early (x : Lif) (t : Nat) (h : t ≤ 7000) :
    x.edgeInFrame t =
      if x.ack.isSome then { x with since := t, opened := false, ack := some .widthError }
      else { x with since := t, opened := false, cells := markWidthError x.cells } := by
  simp [Lif.edgeInFrame, Config.earlyEdgeNs, h]

/-- An edge leaves decode state, idle seen, level, fault mark, run and edge's age to the step (R19, R21). -/
theorem edge_frame (x : Lif) (ns : Nat) :
    (x.edge ns).decode = x.decode ∧ (x.edge ns).idleSeen = x.idleSeen ∧ (x.edge ns).dominant = x.dominant ∧
      (x.edge ns).faultFound = x.faultFound ∧ (x.edge ns).run = x.run ∧ (x.edge ns).edgeNew = x.edgeNew := by
  unfold Lif.edge
  split <;> (try unfold Lif.edgeInFrame) <;> (repeat' split) <;> simp

/-- An edge within 9.0 µs of the last boundary, or at any station but a sender that awaits its ack slot, is one at the cells. -/
theorem edgeAt_plain (ns : Nat) (s : State)
    (h : s.lcu.tx ≠ .slots ∨ s.lif.decode ≠ .tail ∨ s.lif.ack ≠ none ∨ s.lif.since + ns ≤ 9000) :
    edgeAt ns s = s.lif.edge ns := by
  have hm : missesAck (s.lif.since + ns) s = false := by
    unfold missesAck inSlots Config.lateEdgeNs
    rcases h with h | h | h | h
    · simp [h]
    · simp [h]
    · cases ha : s.lif.ack <;> simp_all
    · simp [Nat.not_lt.mpr h]
  simp [edgeAt, hm]

/-- After a missing ack slot the sender's next edge is reckoned from the boundary that was due (R18, R31; log 40). -/
theorem edgeAt_missed (ns : Nat) (s : State) (htx : s.lcu.tx = .slots) (hd : s.lif.decode = .tail) (ha : s.lif.ack = none)
    (h : 9000 < s.lif.since + ns) :
    edgeAt ns s = { s.lif with ack := some .missing }.edgeInFrame (s.lif.since + ns - 8000) := by
  simp [edgeAt, missesAck, inSlots, htx, hd, ha, h, Config.lateEdgeNs, Config.cellNs]

/-- Before its last CRC cell can have been read a frame's decode state is FRAME (R29). -/
theorem decodeAt_short (cells : List CellReading) (h : cells.length < 23) : decodeAt cells = .frame := by
  simp [decodeAt, placedCells, headerCells, h]

/-- A fall ends the present pulse; decode state and cells move by the reading of a cell of the frame alone. -/
theorem fall_frame (x : Lif) (ns : Nat) :
    (x.fall ns).opened = false ∧ (x.fall ns).idleSeen = x.idleSeen ∧ (x.fall ns).dominant = x.dominant ∧
      (x.fall ns).faultFound = x.faultFound ∧ (x.fall ns).run = x.run ∧ (x.fall ns).edgeNew = x.edgeNew := by
  unfold Lif.fall Lif.readPulse Lif.readFrameCell
  refine ⟨rfl, ?_⟩
  dsimp only
  (repeat' split) <;> simp

/-- In HUNT a fall reads nothing. -/
theorem fall_hunt (x : Lif) (ns : Nat) (h : x.decode = .hunt) : x.fall ns = { x with opened := false } := by
  unfold Lif.fall Lif.readPulse
  rw [h]
  cases h1 : x.opened <;> simp [h]

/-! ### The drive (R16, R29 to R31) -/

/-- A station that drives no slots drives nothing (R16). -/
theorem driveOf_silent (s : State) (h : drivesSlots s = false) : driveOf s = none := by simp [driveOf, h]

/-- Between pulses a station drives nothing, but for a start mark that has not been read yet (R17). -/
theorem driveOf_between (s : State) (h : s.lif.opened = false) (hc : s.lif.cells ≠ []) : driveOf s = none := by
  unfold driveOf sendDrive senderSlotDrive receiverDrive
  (repeat' split) <;> simp_all

/-! ### The beginning of a new frame (R26, R40, R41) -/

/-- A newly queued frame leaves every transmitter but IDLE and WAITING alone, begins where the line lets it, and waits otherwise. -/
theorem startOrWait_cases (s : State) :
    (s.lcu.tx ≠ .idle ∧ s.lcu.tx ≠ .waiting ∧ startOrWait s = s) ∨
      ((s.lcu.tx = .idle ∨ s.lcu.tx = .waiting) ∧ (lineIdle s = true ∨ joinable s = true) ∧ startOrWait s = offer s) ∨
      ((s.lcu.tx = .idle ∨ s.lcu.tx = .waiting) ∧ lineIdle s = false ∧ joinable s = false ∧ startOrWait s = wait s) := by
  unfold startOrWait
  by_cases h1 : s.lcu.tx = .idle <;> by_cases h2 : s.lcu.tx = .waiting <;> cases lineIdle s <;> cases joinable s <;> simp_all

/-- The line lets a new frame begin in HUNT with idle seen, on a recessive line or with an edge young enough (R26; log 10). -/
theorem begins_iff (s : State) :
    (lineIdle s || joinable s) = true ↔
      s.lif.decode = .hunt ∧ s.lif.idleSeen = true ∧ (s.lif.dominant = false ∨ s.lif.edgeNew = true) := by
  unfold lineIdle joinable edgePending
  cases s.lif.decode <;> cases s.lif.idleSeen <;> cases s.lif.dominant <;> cases s.lif.edgeNew <;> decide

/-! ### The own frame taken (R41, R42) -/

/-- In a sound queue the frame in attempt is the only one of its place, so that its leaving leaves the others. -/
theorem removeAt_attempted (s : State) (f : QFrame) (hq : QueueSound s) (hf : attempted s = some f) :
    removeAt f.place s.lcu.queue = s.lcu.queue.filter fun g => !g.inAttempt := by
  have hmem : f ∈ s.lcu.queue := List.mem_of_find?_eq_some hf
  have hfa : f.inAttempt = true := by simpa using List.find?_some hf
  refine List.filter_congr fun x hx => ?_
  by_cases hxa : x.inAttempt = true
  · have hxf := find_attempt_unique _ f x (queueSound_atMostOne s hq) hf hx hxa
    simp [hxf, hfa]
  · have hxf : x.place ≠ f.place := by
      intro he
      rw [place_unique _ x f hq.1 hx hmem he] at hxa
      exact hxa hfa
    simp [hxf, hxa]

end Sys2Proof.Machine
end

