-- ==== Sys2Proof/Laws/Rounds.lean ====
section
/-! SUPPORT. Withdrawals, the entry to ENDED, and what follows at an instant of a round, once for all. -/

namespace Sys2Proof.Machine

open Sys2Proof.Safety

/-- A withdrawal of one place, on the queue alone: a frame in attempt is marked, another is gone. -/
def withdrawPlace (p : Place) (q : List QFrame) : List QFrame :=
  (q.filter fun f => f.place != p || f.inAttempt).map fun f => if f.place = p then { f with withdrawn := true } else f

/-- A queue in class order keeps its order under a withdrawal. -/
theorem withdrawPlace_sorted (p : Place) (q : List QFrame) (h : (q.map fun f => f.place.index).Pairwise (· < ·)) :
    ((withdrawPlace p q).map fun f => f.place.index).Pairwise (· < ·) := by
  unfold withdrawPlace
  rw [List.map_map]
  have he : ((fun f : QFrame => f.place.index) ∘ fun f => if f.place = p then { f with withdrawn := true } else f) =
      fun f => f.place.index := by
    funext f; simp only [Function.comp]; split <;> rfl
  rw [he]
  rw [List.pairwise_map] at h ⊢
  exact h.filter _

/-- Own claim, choice and pass withdrawn one after the other. -/
theorem withdrawnQueue_eq (q : List QFrame) :
    withdrawPlace .pass (withdrawPlace .choice (withdrawPlace .claim q)) = withdrawnQueue q := by
  unfold withdrawPlace withdrawnQueue
  induction q with
  | nil => rfl
  | cons a l ih =>
    cases hp : a.place <;> cases hi : a.inAttempt <;>
      simp [ownPlace, hp, hi] at ih ⊢ <;> exact ih

/-- What a withdrawal does, in a queue in class order. -/
theorem withdraw_eq (p : Place) (s : State) (hs : (s.lcu.queue.map fun f => f.place.index).Pairwise (· < ·))
    (hp : p = .claim ∨ p = .choice ∨ p = .pass) (hw : s.lcu.tx = .waiting → s.lcu.queue ≠ []) :
    let idles := s.lcu.tx == .waiting && (withdrawPlace p s.lcu.queue).isEmpty
    withdraw p s =
      (s.withLcu
        { s.lcu with
          queue := withdrawPlace p s.lcu.queue,
          tx := if idles then .idle else s.lcu.tx,
          history := if idles then s.lcu.history.drop 1 ++ [some .idle] else s.lcu.history }).withIcu
        { s.icu with
          record :=
            { s.icu.record with
              ownClaim := if p = .claim ∧ leavesAtOnce p s.lcu.queue = true then .none else s.icu.record.ownClaim,
              claimStamp := if p = .claim ∧ leavesAtOnce p s.lcu.queue = true then none else s.icu.record.claimStamp,
              pendingKey := if p = .choice ∧ leavesAtOnce p s.lcu.queue = true then 0 else s.icu.record.pendingKey } } := by
  intro idles
  have hidles : idles = (s.lcu.tx == .waiting && (withdrawPlace p s.lcu.queue).isEmpty) := rfl
  clear_value idles
  unfold withdraw
  cases hf : frameAt p s.lcu.queue with
  | none =>
    have hn : ∀ f ∈ s.lcu.queue, f.place ≠ p := by
      unfold frameAt at hf; rw [List.find?_eq_none] at hf
      intro f hm; simpa using hf f hm
    have h1 : withdrawPlace p s.lcu.queue = s.lcu.queue := by
      unfold withdrawPlace
      rw [List.filter_eq_self.mpr (by intro f hm; simp [hn f hm])]
      conv_rhs => rw [← List.map_id s.lcu.queue]
      exact List.map_congr_left fun f hm => by simp [hn f hm]
    have h2 : leavesAtOnce p s.lcu.queue = false := by
      unfold leavesAtOnce; rw [List.any_eq_false]; intro f hm; simp [hn f hm]
    have h3 : idles = false := by
      simp only [hidles, h1]
      cases htx : s.lcu.tx <;> simp
      exact hw htx
    simp [h1, h2, h3, State.withIcu, State.withLcu]
  | some f =>
    have hm : f ∈ s.lcu.queue := List.mem_of_find?_eq_some hf
    have hfp : f.place = p := by simpa using List.find?_some hf
    have hu : ∀ x ∈ s.lcu.queue, x.place = p → x = f := fun x hx hxp => place_unique _ x f hs hx hm (hxp.trans hfp.symm)
    cases hi : f.inAttempt with
    | true =>
      have h1 : modifyAt p (fun g => { g with withdrawn := true }) s.lcu.queue = withdrawPlace p s.lcu.queue := by
        unfold modifyAt withdrawPlace
        rw [List.filter_eq_self.mpr]
        intro x hx
        by_cases hxp : x.place = p
        · rw [hu x hx hxp, hi]; simp
        · simp [hxp]
      have h2 : leavesAtOnce p s.lcu.queue = false := by
        unfold leavesAtOnce; rw [List.any_eq_false]; intro x hx
        by_cases hxp : x.place = p
        · rw [hu x hx hxp, hi]; simp
        · simp [hxp]
      have h3 : idles = false := by
        simp only [hidles, ← h1]
        cases hq : s.lcu.queue with
        | nil => rw [hq] at hm; simp at hm
        | cons a l => simp [modifyAt]
      simp only [if_pos hi]
      rw [h1]
      simp [h2, h3, setQueue, State.withIcu, State.withLcu]
    | false =>
      have h1 : removeAt p s.lcu.queue = withdrawPlace p s.lcu.queue := by
        unfold removeAt withdrawPlace
        have hfil : (s.lcu.queue.filter fun f => f.place != p || f.inAttempt) = s.lcu.queue.filter fun f => f.place != p := by
          refine List.filter_congr fun x hx => ?_
          by_cases hxp : x.place = p
          · rw [hu x hx hxp, hi]; simp
          · simp [hxp]
        rw [hfil]
        conv_lhs => rw [← List.map_id (List.filter _ _)]
        refine List.map_congr_left fun x hx => ?_
        have := (List.mem_filter.mp hx).2
        simp at this
        simp [this]
      have h2 : leavesAtOnce p s.lcu.queue = true := by
        unfold leavesAtOnce; rw [List.any_eq_true]; exact ⟨f, hm, by simp [hfp, hi]⟩
      simp only [hi, Bool.false_eq_true, if_false, h1, told, hfp]
      clear h1
      subst hidles
      generalize withdrawPlace p s.lcu.queue = q
      rcases hp with rfl | rfl | rfl <;>
        simp only [h2, setQueue, setRecord, State.withLcu_lcu, State.withIcu_lcu] <;>
        by_cases h4 : s.lcu.tx = .waiting <;> cases q <;>
        simp [h4, enterTx, State.withIcu, State.withLcu, show (TxState.idle == TxState.recovering) = false from rfl]

/-- The premises of a withdrawal, from a sound queue: class order, and nothing WAITING without a frame. -/
theorem withdrawable (s : State) (h : QueueSound s) :
    (s.lcu.queue.map fun f => f.place.index).Pairwise (· < ·) ∧ (s.lcu.tx = .waiting → s.lcu.queue ≠ []) :=
  ⟨h.1, h.2.2.1.2.1⟩

/-- Places that a withdrawal does not name keep their frames. -/
theorem leavesAtOnce_withdrawPlace (p r : Place) (q : List QFrame) (h : p ≠ r) :
    leavesAtOnce p (withdrawPlace r q) = leavesAtOnce p q := by
  unfold leavesAtOnce withdrawPlace
  induction q with
  | nil => rfl
  | cons a l ih =>
    have h' : ¬ r = p := fun e => h e.symm
    by_cases hr : a.place = r
    · have hb : (r == p) = false := by simpa using h'
      cases hi : a.inAttempt <;> simp [hr, hi, hb] at ih ⊢ <;> exact ih
    · simp [hr] at ih ⊢
      rw [ih]

/-- The withdrawal of own CLAIM, CHOICE and PASS (R95). -/
theorem withdrawOwn_spec (s : State) (hs : (s.lcu.queue.map fun f => f.place.index).Pairwise (· < ·))
    (hw : s.lcu.tx = .waiting → s.lcu.queue ≠ []) :
    WithdrawnOwn s (withdrawOwn s) ∧ ∃ l i, withdrawOwn s = (s.withLcu l).withIcu i := by
  unfold withdrawOwn
  rw [withdraw_eq .claim s hs (.inl rfl) hw]
  rw [withdraw_eq .choice _ (withdrawPlace_sorted _ _ hs) (.inr (.inl rfl)) (by
    intro h1 h2
    simp only [State.withIcu_lcu, State.withLcu_lcu] at h1 h2
    split at h1
    · cases h1
    · rename_i h3; simp [h1, h2] at h3)]
  rw [withdraw_eq .pass _ (withdrawPlace_sorted _ _ (withdrawPlace_sorted _ _ hs)) (.inr (.inr rfl)) (by
    intro h1 h2
    simp only [State.withIcu_lcu, State.withLcu_lcu] at h1 h2
    by_cases h4 : s.lcu.tx = .waiting ∧ withdrawPlace .claim s.lcu.queue = []
    · simp [h4] at h1
    · simp only [h2, List.isEmpty_nil, Bool.and_true] at h1
      by_cases h5 : s.lcu.tx = .waiting
      · have h6 : withdrawPlace .claim s.lcu.queue ≠ [] := fun e => h4 ⟨h5, e⟩
        simp [h5, h6] at h1
      · simp [h5] at h1)]
  have hq := withdrawnQueue_eq s.lcu.queue
  have h1 := leavesAtOnce_withdrawPlace .choice .claim s.lcu.queue (by decide)
  have e1 : ∀ p q, q = [] → withdrawPlace p q = [] := by intro p q h; subst h; rfl
  refine ⟨⟨?_, ?_⟩, ⟨_, _, rfl⟩⟩
  · unfold WithdrawnFrames
    dsimp only
    rw [← hq]
    simp only [State.withIcu_lcu, State.withLcu_lcu]
    by_cases htx : s.lcu.tx = .waiting
    · cases ha : withdrawPlace .claim s.lcu.queue with
      | nil => simp [htx, e1 .choice [] rfl, e1 .pass [] rfl]
      | cons a l =>
        cases hb : withdrawPlace .choice (a :: l) with
        | nil => simp [htx, e1 .pass [] rfl]
        | cons b k => cases withdrawPlace .pass (b :: k) <;> simp [htx]
    · simp [htx, show ∀ x : TxState, x ≠ .waiting → (x == .waiting) = false from fun x hx => by simpa using hx]
  · simp [h1]

/-- The entry to ENDED (R95). -/
theorem enterEnded_spec (s : State) (hs : (s.lcu.queue.map fun f => f.place.index).Pairwise (· < ·))
    (hw : s.lcu.tx = .waiting → s.lcu.queue ≠ []) :
    RoundEnds s (enterEnded s) ∧ (enterEnded s).clt = s.clt ∧
      (enterEnded s).cmp = { s.cmp with flags := s.cmp.flags ||| Event.roundEnded.flag } := by
  obtain ⟨⟨h1, h2⟩, l, i, h3⟩ := withdrawOwn_spec
    ((s.withRng { s.rng with phase := .ended, answerRunning := false }).withRck { s.rck with running := false }) hs hw
  unfold enterEnded
  refine ⟨⟨?_, ?_, h1, h2⟩, ?_, ?_⟩ <;> rw [h3] <;> rfl

/-- The grant (R84, R107). -/
theorem grant_spec (s : State) (h : grantDue s = true) :
    Granted s (grant s) ∧ (grant s).cmp = { s.cmp with flags := s.cmp.flags ||| Event.turnGranted.flag } := by
  have hh : ∃ e, waitingHead s.clt.entries = some e := by
    unfold grantDue at h
    cases hw : waitingHead s.clt.entries with
    | none => rw [hw] at h; simp at h
    | some e => exact ⟨e, rfl⟩
  obtain ⟨e, he⟩ := hh
  obtain ⟨rest, hr⟩ : ∃ rest, waitingPart s.clt.entries = e :: rest := by
    unfold waitingHead at he
    cases hw : waitingPart s.clt.entries with
    | nil => rw [hw] at he; cases he
    | cons a l => rw [hw] at he; cases he; exact ⟨l, rfl⟩
  unfold grant
  rw [he]
  exact ⟨⟨e, rest, hr, by simp [grantHead, hr], by simp⟩, by simp [raise]⟩

/-- What follows at the same instant (R84, R92, R93). -/
theorem advance_spec (s : State) (hs : (s.lcu.queue.map fun f => f.place.index).Pairwise (· < ·))
    (hw : s.lcu.tx = .waiting → s.lcu.queue ≠ []) :
    Follows s (advance s) ∧ (advance s).cmp = { s.cmp with flags := s.cmp.flags ||| followFlags s } := by
  unfold advance Follows followFlags
  by_cases h1 : closingDue s = true
  · simp [h1, setPhase]
  · by_cases h2 : grantDue s = true
    · have hg := grant_spec s h2
      have hx : (grant s).rck = s.rck ∧ (grant s).lcu = s.lcu ∧ (grant s).icu = s.icu := by simp
      simp only [if_neg h1, if_pos h2]
      exact ⟨⟨hg.1, hx⟩, hg.2⟩
    · by_cases h3 : settleOutDue s = true
      · simp only [if_neg h1, if_neg h2, if_pos h3]
        obtain ⟨a, b, c⟩ := enterEnded_spec s hs hw
        exact ⟨⟨a, b⟩, c⟩
      · simp [h1, h2, h3, RoundSame]

/-- The entry to ENDED leaves start-up unit, console function, panel driver and counter alone (R95). -/
theorem enterEnded_keeps (s : State) (hs : (s.lcu.queue.map fun f => f.place.index).Pairwise (· < ·))
    (hw : s.lcu.tx = .waiting → s.lcu.queue ≠ []) :
    (enterEnded s).suu = s.suu ∧ (enterEnded s).cnf = s.cnf ∧ (enterEnded s).pnl = s.pnl ∧
      (enterEnded s).free = s.free := by
  obtain ⟨-, l, i, h3⟩ := withdrawOwn_spec
    ((s.withRng { s.rng with phase := .ended, answerRunning := false }).withRck { s.rck with running := false }) hs hw
  unfold enterEnded
  refine ⟨?_, ?_, ?_, ?_⟩ <;> rw [h3] <;> rfl

/-- So does whatever follows at an instant of the round. -/
theorem advance_keeps (s : State) (hs : (s.lcu.queue.map fun f => f.place.index).Pairwise (· < ·))
    (hw : s.lcu.tx = .waiting → s.lcu.queue ≠ []) :
    (advance s).suu = s.suu ∧ (advance s).cnf = s.cnf ∧ (advance s).pnl = s.pnl ∧ (advance s).free = s.free := by
  unfold advance
  split
  · simp [setPhase]
  split
  · unfold grant; split <;> simp
  split
  · exact enterEnded_keeps s hs hw
  · simp

/-- The frame of a step that ends with what follows from m. -/
theorem stepFrame_advance (changed : List Block) (raised : BitVec 14) (s m : State)
    (hs : (m.lcu.queue.map fun f => f.place.index).Pairwise (· < ·)) (hw : m.lcu.tx = .waiting → m.lcu.queue ≠ [])
    (hch : ∀ b ∈ roundBlocks, b ∈ changed) (hm : ∀ b, b ∉ changed → b ≠ .pnl → b ≠ .cmp → b.same s m)
    (hp : m.pnl = s.pnl) (hc : m.cmp = { s.cmp with flags := s.cmp.flags ||| raised }) (hq : m.pending = s.pending) :
    StepFrame changed (raised ||| followFlags m) s (refresh (advance m)) := by
  obtain ⟨k1, k2, k3, k4⟩ := advance_keeps m hs hw
  apply stepFrame_refresh
  · intro b hb h1 h2
    have h3 := hm b hb h1 h2
    have h4 : b ∉ roundBlocks := fun h => hb (hch b h)
    cases b <;> simp_all [Block.same]
  · rw [k3]; exact hp
  · rw [(advance_spec m hs hw).2, hc, BitVec.or_assoc]
  · simp [hq]

end Sys2Proof.Machine
end

