-- ==== Sys2Proof/Laws/Takings.lean ====
section
/-! SUPPORT. What the common parts of a taking do at a receiver. -/

namespace Sys2Proof.Machine

open Sys2Proof.Safety

theorem seatedTeams_modify (entries : List PresEntry) (d r : Nat)
    (h : ∀ e ∈ entries, e.heard = false → e = PresEntry.reset) :
    seatedTeams (entries.modify d fun e => { e with heard := true, lastRound := r }) = seatedTeams entries := by
  unfold seatedTeams
  refine List.filter_congr fun t ht => ?_
  have key : ∀ e ∈ entries, (true && e.role == .team && e.team == t) = (e.heard && e.role == .team && e.team == t) := by
    intro e he
    cases hh : e.heard with
    | true => rfl
    | false => rw [h e he hh]; simp [PresEntry.reset]
  induction entries generalizing d with
  | nil => cases d <;> rfl
  | cons x xs ih =>
    cases d with
    | zero =>
      simp only [List.modify_zero_cons, List.any_cons]
      rw [← key x (by simp)]
    | succ n =>
      simp only [List.modify_succ_cons, List.any_cons]
      rw [ih n (fun e he => h e (by simp [he])) (fun e he => key e (by simp [he]))]

/-- Heard-marking leaves the scoreboard and the seated set (R188, R190). -/
theorem markHeard_sound (d r : Nat) (s : State) (h : TablesSound s) :
    (markHeard d r s).scu = s.scu ∧
      (markHeard d r s).prs =
        { s.prs with entries := s.prs.entries.modify d fun e => { e with heard := true, lastRound := r } } ∧
      (markHeard d r s).cmp =
        { s.cmp with flags := s.cmp.flags ||| raisedIf (!(s.prs.entry d).heard) .presenceChanged } := by
  obtain ⟨-, -, h1, h2, -⟩ := h
  have hs := seatedTeams_modify s.prs.entries d r h1
  unfold markHeard setEntry raiseIf
  dsimp only
  rw [hs, if_pos h2.symm]
  cases hh : (s.prs.entry d).heard <;> simp [raise, raisedIf, ← h2]

/-- Heard-marking leaves the identity record alone. -/
@[simp] theorem markHeard_identity (d r : Nat) (s : State) : (markHeard d r s).suu = s.suu := by simp

/-- A receiver's state when its owners are handed the frame. -/
theorem taking_received (f : Frame) (eff : State → State) (s : State) (h : Receives f s)
    (he : ∀ x, (eff x).suu.identity = x.suu.identity) :
    taking f eff s =
      if senderAllowed f.desk.toNat f.body then eff (markHeard f.desk.toNat f.round.toNat (frameEnd s))
      else markHeard f.desk.toNat f.round.toNat (frameEnd s) := by
  obtain ⟨-, h1, h2⟩ := h
  have hown : ownAttempt s = false := by simp [ownAttempt, h1]
  unfold taking takenAtLine
  simp only [hown, Bool.false_eq_true, if_false]
  unfold checkDuplicate
  rw [if_neg]
  rintro ⟨hd, -⟩
  apply h2
  rw [hd]
  split <;> simp [he]

/-- The state in which a receiver's owners are handed a frame. -/
def heard (f : Frame) (s : State) : State :=
  { s with
    lif := hunted s.lif
    lcu := lcuIdle s
    prs := { s.prs with entries := heardEntries f s }
    cmp := { s.cmp with flags := s.cmp.flags ||| heardFlag f s } }

/-- Heard-marking at a receiver, as one record (R31, R188). -/
theorem markHeard_heard (f : Frame) (s : State) (h : TablesSound s) :
    markHeard f.desk.toNat f.round.toNat (frameEnd s) = heard f s := by
  have ht : TablesSound (frameEnd s) := h
  obtain ⟨h1, h2, h3⟩ := markHeard_sound f.desk.toNat f.round.toNat (frameEnd s) ht
  have he : ∀ a b : State, a.suu = b.suu → a.sto = b.sto → a.lif = b.lif → a.lcu = b.lcu → a.rck = b.rck → a.icu = b.icu →
      a.rng = b.rng → a.clt = b.clt → a.cht = b.cht → a.scu = b.scu → a.cnf = b.cnf → a.prs = b.prs → a.pnl = b.pnl →
      a.cmp = b.cmp → a.ltx = b.ltx → a.pending = b.pending → a.free = b.free → a = b := by
    rintro ⟨⟩ ⟨⟩; simp_all
  apply he <;> first
    | exact h1
    | exact h2
    | exact h3
    | (simp [frameEnd, heard, Lif.hunting])

/-- The taking of another station's frame that passes its sender check. -/
theorem takes_heard (f : Frame) (eff : State → State) (s : State) (h : Receives f s) (ht : TablesSound s)
    (ha : senderAllowed f.desk.toNat f.body = true) (he : ∀ x, (eff x).suu.identity = x.suu.identity) :
    takes f eff s = .next (refresh (eff (heard f s))) := by
  unfold takes
  rw [when_occurs _ _ h.1, taking_received f eff s h he, if_pos ha, markHeard_heard f s ht]

end Sys2Proof.Machine
end

