-- ==== Sys2Proof/Tests/Slice0.lean ====
section
/-! SUPPORT. Tests: steps that are not well formed, the worked examples of the spec (each test names its place), and for every
statement with hypotheses a state that meets them. -/

namespace Sys2Proof.Tests

open Sys2Proof Sys2Proof.Machine Sys2Proof.Safety

/- The kernel evaluates each test in its turn: side by side they would need a thread each. -/
set_option Elab.async false

/-! ### Helpers -/

/-- The state after a step; the reset state if the step does not answer one. -/
def after (i : Instr) (s : State) : State := match exec i s with
  | .next t => t
  | _ => State.reset

/-- A JOINED station of a role. -/
def station (role : Role) (desk team : Nat) : State :=
  { State.reset with
    suu :=
      { Suu.reset with
        startUp := .joined, identity := { Identity.reset with role := role, desk := desk, team := team, passHold := 12 } }
    sto := { Sto.reset with busy := false } }

/-- A station inside a frame of which it has read no cell the rows report. -/
def hearing (s : State) : State := { s with lif := { s.lif with decode := .frame } }

/-- A station whose port is in a transfer. -/
def commanded (s : State) : State := { s with cmp := { s.cmp with transfer := .shifting, csN := false } }

/-- A station on an idle line. -/
def idleLine (s : State) : State := { s with lif := { s.lif with idleSeen := true } }

/-- A station in a round at this count of a running clock. -/
def inRound (number : Nat) (block : OpenBlock) (phase : Phase) (count : Nat) (s : State) : State :=
  { s with
    rng := { loadRound (byteOf number) block with phase := phase }
    rck := { count := count, running := true } }

/-- A station in a turn. -/
def inTurn (turn team : Nat) (phase : Phase) (s : State) : State :=
  { s with
    rng :=
      { s.rng with
        phase := phase, turn := turn, answering := some team, answerClock := if phase = .turn then 500 else 0
        answerRunning := phase == .turn } }

/-- A queued frame not in attempt. -/
def waitingFrame (c : Content) (attempts : Nat) : QFrame := { fresh c .icu with attempts := attempts, round := some 12 }

/-- A frame in attempt. -/
def sentFrame (c : Content) (attempts : Nat) : QFrame := { waitingFrame c attempts with inAttempt := true }

/-- A transmitter with this queue. -/
def sending (tx : TxState) (queue : List QFrame) (s : State) : State := { s with lcu := { s.lcu with tx := tx, queue := queue } }

/-- An entry of the claim list. -/
def entry (team desk stamp level : Nat) (status : ClaimStatus) : Entry :=
  { team := team, desk := desk, stamp := stamp, level := level, status := status, outcome := none, late := false,
    adopted := false }

/-- A claim list. -/
def listed (es : List Entry) (s : State) : State := { s with clt := ⟨es⟩ }

/-- The buzzer round of the examples: grain 16, arm 150, settle 40, answer time 500, window 300, V 200, W 40, P 50, team 9 at
level 2 (05, "A buzzer round, phase by phase"). -/
def buzzRound : OpenBlock :=
  { flags := 0x02, armDelay := 150, jumpLock := 0, settle := 40, answerTime := 500, window := 300, v := 200, w := 40, b := 0,
    p := 50, levels := 0x00008000 }

/-- A choice round of the examples: grain 16, arm 200, jump lock 100, window 100, V 100, W 25, B 50, mode by the flag
(04, "A choice round at one desk"; 08, "A choice round on the scoreboard"). -/
def choiceRound (change : Bool) : OpenBlock :=
  { flags := if change then 0xC2 else 0x82, armDelay := 200, jumpLock := 100, settle := 40, answerTime := 500, window := 100,
    v := 100, w := 25, b := 50, p := 0, levels := 0 }

/-- Teams seated with these totals, ranks worked out. -/
def scored (totals : List (Nat × Int)) (s : State) : State :=
  let desks := totals.map fun tc => tc.1
  { s with
    scu :=
      ⟨ranked (s.scu.records.mapIdx fun i x => match totals.find? (·.1 == i + 1) with
        | some tc => { x with total := tc.2, seated := true, unconfirmed := false }
        | none => x)⟩
    prs :=
      { entries := s.prs.entries.mapIdx fun i e =>
          if desks.contains i then { e with heard := true, role := .team, team := i } else e
        seated := (List.range 17).filter fun t => desks.contains t } }

/-! ### Steps that are not well formed (WellFormed.lean) -/

theorem test_refuses_cell_ten : wellFormed (.arbitrationLost 10) = false := by decide
theorem test_refuses_cell_past_crc : wellFormed (.bitMismatch 191 .missing) = false := by decide
theorem test_refuses_frame_of_forty_cells :
    wellFormed (.frameDiscarded (List.replicate 40 (.pulse 2000)) (.pulse 6000) (.pulse 6000)) = false := by decide
theorem test_refuses_run_without_cause : wellFormed (.objectionRunBegun [.pulse 2000, .pulse 4000, .pulse 2000]) = false := by
  decide
theorem test_refuses_known_code_as_unknown : wellFormed (.unknownCommand 0x0A [1, 2]) = false := by decide

/-! ### Encodings and orders -/

/-- The catalogued check value of this CRC (generator 0x1021, start all ones, nothing inverted) over "123456789". -/
theorem test_crc_check_value : crc (([0x31, 0x32, 0x33, 0x34, 0x35, 0x36, 0x37, 0x38, 0x39] : List Byte).flatMap bitsOf) = 0x29B1 := by
  decide +kernel
/-- Frame lengths of 02 R25: 195 cells for an OPEN and 83 for a VERDICT, of which 2 are start mark and 2 are slots. -/
theorem test_frame_lengths :
    (wireBits ⟨0, 12, .open_ buzzRound⟩).length = 195 - 4 ∧ (wireBits ⟨0, 12, .verdict 1 9 2 260⟩).length = 83 - 4 := by
  decide +kernel
/-- The edges of R18's table. -/
theorem test_cell_readings :
    readCell (.pulse 999) = .widthError ∧ readCell (.pulse 1000) = .one ∧ readCell (.pulse 3499) = .one ∧
      readCell (.pulse 3500) = .widthError ∧ readCell (.pulse 4500) = .zero ∧ readCell (.pulse 7000) = .zero ∧
      readCell (.pulse 7001) = .widthError := by decide
/-- STORE_WRITE of 0x3803 to row 0; SET_TOTAL 6 to −20; a code that names none; a short ADJUST; nothing (R195, R204). -/
theorem test_transfers_decode :
    decodeTransfer true false false [0x0D, 0x00, 0x38, 0x03] = .storeWrite 0 0x3803 true ∧
      decodeTransfer true false false [0x24, 0x06, 0xFF, 0xEC, 0xAA] = .setTotal 6 (-20) ∧
      decodeTransfer true false false [0x0F, 0x01] = .unknownCommand 0x0F [0x01] ∧
      decodeTransfer true false false [0x25, 0x06, 0x00] = .unknownCommand 0x25 [0x06, 0x00] ∧
      decodeTransfer true false false [] = .transferEndNoCommand := by decide
/-- The table of 08 R143 at V 200. -/
theorem test_rebound_table :
    (List.range 9).map (reboundValue 200 50) = [200, 100, 50, 25, 12, 6, 3, 1, 1] ∧
      (List.range 9).map (reboundValue 200 30) = [200, 60, 18, 5, 1, 1, 1, 1, 1] ∧
      (List.range 3).map (reboundValue 200 0) = [200, 0, 0] := by decide
/-- The table of 08 R139. -/
theorem test_delta_table :
    applyDelta true 20 (-40) = 0 ∧ applyDelta false 20 (-40) = -20 ∧ applyDelta true (-50) (-40) = 0 ∧
      applyDelta true (-120) 30 = -90 ∧ applyDelta true 9980 50 = 9999 ∧ applyDelta false (-9990) (-25) = -9999 := by decide
/-- The ranks of 08 R156: 1, 3, 1, 5, 3, and 0 for the unseated team 6 with 500. -/
theorem test_rank_example :
    ((scored [(1, 120), (2, 90), (3, 120), (4, -20), (5, 90)] (station .team 5 2)).scu.records.take 5).map TeamRec.rank =
      [1, 3, 1, 5, 3] ∧
    rankOf (scored [(1, 120), (2, 90)] (station .team 5 2)).scu.records { TeamRec.reset with total := 500 } = 0 := by
  decide +kernel
/-- The cut of 05 R76: arm 250 and window 2,000 give window ticks 16,520,000 and close point 16,770,000. -/
theorem test_window_cut :
    (loadRound 1 { buzzRound with armDelay := 250, window := 2000 }).windowTicks = 16520000 ∧
      (loadRound 1 { buzzRound with armDelay := 250, window := 2000 }).closePoint = 16770000 := by decide

/-! ### Start-up and store (01) -/

/-- "Start-up of a team desk": desk 14, team 3, tag 0x0102, filter 4 ms, pass-hold 0.8 s; then the HELLO on an idle line. -/
def loadingDesk14 : State :=
  { State.reset with sto := { Sto.reset with row0 := 0x3803, row1 := 0x0802, row2 := 0, row3 := 0x0102 } }

theorem test_loading_desk14 :
    (after .loadingReadEnd loadingDesk14).suu.startUp = .joining ∧
      (after .loadingReadEnd loadingDesk14).suu.identity =
        { role := .team, desk := 14, team := 3, tag := 0x0102, filterMs := 4, passHold := 8, idleDisplay := .total,
          blink := false, reason := .none } := by decide +kernel
/-- An erased store at a TEAM strap is BAD_DESK (R3). -/
theorem test_erased_store_is_bad_desk :
    (after .loadingReadEnd State.reset).suu.startUp = .configFault ∧
      (after .loadingReadEnd State.reset).suu.identity.reason = .badDesk ∧
      (after .loadingReadEnd State.reset).pnl.content.pos2 = .f := by decide +kernel
theorem test_joining_hands_hello :
    (after .joiningIdleWaitEnd (idleLine (after .loadingReadEnd loadingDesk14))).lcu.queue.map (fun f => (f.content, f.round)) =
      [(.hello 1 3 0x0102, some 0)] ∧
    (after .joiningIdleWaitEnd (idleLine (after .loadingReadEnd loadingDesk14))).lcu.tx = .contending := by decide +kernel
/-- A row is written 8 ms after the taking, not before (R9). -/
theorem test_store_write :
    (after (.storeWrite 0 0x3803 true) (commanded (station .team 5 2))).sto.row0 = 0xFFFF ∧
      (after .storeWriteEnd (after (.storeWrite 0 0x3803 true) (commanded (station .team 5 2)))).sto.row0 = 0x3803 ∧
      (after .storeWriteEnd (after (.storeWrite 0 0x3803 true) (commanded (station .team 5 2)))).flagSet .storeDone = true := by
  decide +kernel
/-- RESTART places LOADING, holds the reset reply with cause 3, keeps the rows (R15, R196). -/
theorem test_restart :
    (after (.restart true false) (commanded (station .wall 60 0))).suu.startUp = .loading ∧
      (after (.restart true false) (commanded (station .wall 60 0))).suu.strap1 = true ∧
      (after (.restart true false) (commanded (station .wall 60 0))).cmp.heldReply = [0, 6, 0xFF, 0, 0, 3] := by decide +kernel
/-- "Two stations on desk 14": the first takes a HELLO of desk 14 it did not send, and mutes. -/
theorem test_duplicate_desk_mutes :
    let t := after (.helloTaken 14 0 1 5 0) (hearing (sending .waiting [waitingFrame (.claim 10200 3) 0] (station .team 14 3)))
    t.suu.muted = true ∧ t.lcu.tx = .muted ∧ t.lcu.queue = [] ∧ t.flagSet .duplicate = true ∧ t.flagSet .txDropped = true := by
  decide +kernel

/-! ### The line and the station's own attempts (02, 03) -/

/-- "Three stations at one idle": a CLAIM (class 0100) loses to a VERDICT in cell 2; desk 27 (011011) to desk 11 in cell 6. -/
theorem test_arbitration_lost :
    let s := sending .contending [sentFrame (.claim 10200 9) 0] (station .team 27 9)
    canLose 1 s = true ∧ canLose 4 s = false ∧ canLose 5 s = true ∧
      (after (.arbitrationLost 5) s).lcu.tx = .waiting ∧
      (after (.arbitrationLost 5) s).lcu.queue = [waitingFrame (.claim 10200 9) 0] ∧
      (after (.arbitrationLost 5) s).lif.cells = [.zero, .one, .zero, .zero, .zero, .zero] := by decide +kernel
/-- R29: a receiver in TAIL with every cell clean drives the ack slot from its opening edge, 8.0 µs after the boundary, for 6.0 µs; with
a decode error it drives the objection slot alone (R31). -/
theorem test_slots_driven :
    let cells := sentBits (sending .slots [sentFrame (.claim 10200 9) 0] (station .team 27 9))
    let s := station .team 5 2
    let u (bad : Bool) (ack : Option CellReading) : State :=
      { s with lif := { s.lif with
        decode := .tail, since := 2000, ack := ack
        cells := if bad then (cleanCells cells).set 30 .widthError else cleanCells cells } }
    (after (.lineLevelChange (.toDominant 6000)) (u false none)).ltx = some 6000 ∧
      (after (.lineLevelChange (.toDominant 6000)) (u true none)).ltx = none ∧
      (after (.lineLevelChange (.toDominant 6000)) (u true (some .zero))).ltx = some 6000 ∧
      (after (.lineLevelChange (.toDominant 6000)) (u false (some .zero))).ltx = none := by decide +kernel
/-- R28, R29, R31: a sender that reads its last CRC cell as the other bit is a receiver in TAIL: it reads the ack slot as a slot, and
drives the objection slot alone. -/
theorem test_mismatch_in_last_cell :
    let bits := sentBits (sending .sending [sentFrame (.claim 10200 9) 0] (station .team 27 9))
    let s := sending .sending [sentFrame (.claim 10200 9) 0] (station .team 27 9)
    let n := bits.length - 1
    let pulse : CellPulse := .pulse (if bits[n]? = some true then 6000 else 2000)
    let u := { s with lif := { s.lif with decode := .frame, cells := (cleanCells bits).take n, since := 2000 } }
    let a := after (.bitMismatch n pulse) u
    let b := after (.lineLevelChange (.toRecessive 6000)) (after (.lineLevelChange (.toDominant 6000)) a)
    let c := after (.lineLevelChange (.toDominant 2000)) b
    a.lif.decode = .tail ∧ a.ltx = none ∧ b.lif.cells = a.lif.cells ∧ b.lif.ack = some .zero ∧ c.ltx = some 6000 ∧
      (after (.lineLevelChange (.toDominant 6000)) a).ltx = none := by decide +kernel
/-- R18, R31: a sender whose ack slot is missing objects in the slot after it, which opens 16.0 µs after the last CRC cell. -/
theorem test_ack_slot_missing :
    let s := sending .slots [sentFrame (.claim 10200 9) 0] (station .team 27 9)
    let u := { s with lif := { s.lif with decode := .tail, cells := cleanCells (sentBits s), since := 2000 } }
    let edge (ns : Nat) : State := after (.lineLevelChange (.toDominant ns)) u
    ((edge 14000).ltx = some 6000 ∧ (edge 14000).lif.ack = some .missing ∧ (edge 6000).ltx = some 2000) ∧
      ((edge 10000).ltx = none ∧
        (after (.lineLevelChange (.toDominant 3000))
          (after (.lineLevelChange (.toRecessive 1000)) (edge 10000))).ltx = some 6000) ∧
      (edge 16000).ltx = none := by decide +kernel
/-- R17, R18, R20: a CLAIM's start mark runs into its first cell, class 0100; an edge 6.5 µs after a boundary spoils the cell. -/
theorem test_cells_driven_and_read :
    let s := idleLine (sending .contending [sentFrame (.claim 10200 9) 0] (station .team 27 9))
    let a := after .startMarkRecognized (after (.lineLevelChange (.toDominant 9000)) s)
    let b := after (.lineLevelChange (.toDominant 2000)) (after (.lineLevelChange (.toRecessive 22000)) a)
    (a.ltx = some 22000 ∧ b.ltx = some 2000 ∧ b.lif.cells = [.zero]) ∧
      (after (.lineLevelChange (.toDominant 4500)) (after (.lineLevelChange (.toRecessive 2000)) b)).lif.cells =
        [.zero, .widthError] := by
  decide +kernel
/-- R26: a frame ready 1.0 µs after another's edge joins its start mark; once the edge is older it waits. -/
theorem test_start_mark_joined :
    let s :=
      after (.lineLevelChange (.toDominant 9000)) (idleLine (inRound 12 buzzRound .live 170000 (station .team 27 9)))
    (handOver (.claim 10200 9) .icu s).lcu.tx = .contending ∧
      (handOver (.claim 10200 9) .icu (edgeAges s)).lcu.tx = .waiting := by decide +kernel
/-- R71, R122: an own CHOICE of key 0 is ignored by the table and recorded at the desk. -/
theorem test_own_choice_of_key_zero :
    let c := Content.choice 30000 0 3
    let s := inRound 15 (choiceRound true) .live 480000 (station .team 14 3)
    let u := sending .slots [{ sentFrame c 0 with round := some 15 }]
      { s with icu := { s.icu with record := { s.icu.record with lastKey := 2, pendingKey := 3 } } }
    let t := after (.choiceTaken 14 15 30000 0 3) { u with lif := { u.lif with decode := .tail, cells := [] } }
    t.icu.record.lastKey = 0 ∧ t.icu.record.pendingKey = 0 ∧ t.cht = s.cht ∧ t.lcu.queue = [] := by decide +kernel
/-- "A claim that fails four times": the fourth counted end, OBJECTED, drops it. -/
theorem test_claim_dropped :
    let s := sending .slots [sentFrame (.claim 10200 9) 3] (inRound 12 buzzRound .live 170000 (station .team 27 9))
    let cells := sentBits s
    let u := { s with
      icu := { s.icu with record := { s.icu.record with ownClaim := .pending, claimStamp := some 10200 } }
      lif := { s.lif with decode := .tail, cells := cleanCells cells } }
    let t := after (.frameDiscarded (cells.map fun b => .pulse (if b then 2000 else 6000)) (.pulse 6000) (.pulse 6000)) u
    t.lcu.tx = .idle ∧ t.lcu.queue = [] ∧ t.icu.record.ownClaim = .dropped ∧ t.flagSet .txDropped = true := by decide +kernel
/-- "Replacing a choice while it is on the line": OBJECTED gives the place its pending content C, TAKEN a fresh D. -/
theorem test_choice_replaced :
    let b := Content.choice 30000 2 3
    let c := Content.choice 31000 3 3
    let s := sending .sending [sentFrame b 0] (station .team 7 3)
    let t := handOver c .icu s
    (endAttempt .objected t).lcu.queue = [fresh c .icu] ∧ (endAttempt .taken t).lcu.queue = [fresh c .icu] ∧
      (endAttempt .objected t).lcu.tx = .waiting := by decide +kernel
/-- "A console through a double fault": the first fault's record; then, while the fault memory runs, the second fault. -/
theorem test_stuck_line :
    let s := sending .waiting [waitingFrame (.verdict 2 4 .wrong none) 1] (inRound 7 buzzRound .turn 412460 (station .console 0 0))
    let u := { s with
      lif := { s.lif with dominant := true }
      lcu := { s.lcu with history := [some .waiting, some .contending, some .sending, some .waiting], domFrame := some (2, 1) } }
    let t := after .lineFault u
    t.lcu.tx = .recovering ∧
      t.lcu.log =
        [{ cause := .stuck, escalated := false, history := [some .waiting, some .contending, some .sending, some .waiting],
           round := 7, clock := 412460, cls := 2, attempts := 1 }] := by decide +kernel
theorem test_double_fault :
    let stuck : FaultRec := { cause := .stuck, escalated := false, history := [], round := 7, clock := 412460, cls := 2, attempts := 1 }
    let pages := [waitingFrame (.tally 1 none) 0, waitingFrame (.tally 2 none) 0, waitingFrame (.tally 3 none) 0]
    let s := sending .slots (sentFrame (.tally 0 (some (0, 0, 0, 0))) 0 :: pages)
      (inRound 7 buzzRound .turn 477756 (station .console 0 0))
    let u := { s with
      lif := { s.lif with dominant := true, decode := .tail }
      lcu := { s.lcu with
        history := [some .waiting, some .contending, some .sending, some .slots], faultMemory := .running 1000000
        log := [stuck] } }
    let t := after .lineFault u
    t.lcu.tx = .halted ∧ t.lcu.queue = [] ∧ t.flagSet .txDropped = true ∧
      t.lcu.log =
        [{ stuck with escalated := true },
         { cause := .doubleFault, escalated := true,
           history := [some .waiting, some .contending, some .sending, some .slots], round := 7, clock := 477756, cls := 6,
           attempts := 1 }] := by decide +kernel

/-! ### The round, the claim list, the scoreboard (05 to 08) -/

/-- "A buzzer round in the list": the three CLAIMs leave 9, 4, 2 in that order; the grant waits for 167,200. -/
def afterClaims (count : Nat) : State :=
  { (after (.claimTaken 5 12 10243 2) (hearing (after (.claimTaken 27 12 10200 9) (hearing (after (.claimTaken 11 12 10200 4)
      (hearing (inRound 12 buzzRound .live 164180 (station .team 40 2)))))))) with rck := { count := count, running := true } }

theorem test_claim_order : (afterClaims 164320).clt.entries.map Entry.team = [9, 4, 2] := by decide +kernel
theorem test_grant_at_deadline :
    (after .settleDeadline (afterClaims 167199)).rng.phase = .live ∧
      (after .settleDeadline (afterClaims 167200)).rng.answering = some 9 ∧
      (after .settleDeadline (afterClaims 167200)).rng.turn = 1 ∧
      (after .settleDeadline (afterClaims 167200)).rng.answerClock = 500 := by decide +kernel
/-- "A station brought back into line": desk 40 has granted turn 1 to team 2 when VERDICT (1, 9, WRONG) comes. -/
theorem test_alignment :
    let s := scored [(2, 80), (4, 150), (6, 200), (9, 300)]
      (listed [entry 2 5 10243 0 .answering] (inTurn 1 2 .turn (inRound 12 buzzRound .turn 290000 (station .team 40 2))))
    let t := after (.verdictTaken 0 12 1 9 2 260) (hearing s)
    t.clt.entries.map (fun e => (e.team, e.stamp, e.status)) = [(9, 18125, .spent), (2, 10243, .answering)] ∧
      t.clt.entries.map (fun e => (e.late, e.adopted)) = [(false, true), (true, false)] ∧ t.rng.turn = 2 ∧
      t.flagSet .diverged = true ∧ (t.scu.team 9).total = 260 ∧ (t.scu.team 9).wrongs = 1 := by decide +kernel
/-- "A buzzer round on the scoreboard": VERDICT (3, 2, RIGHT, C 130) makes team 2 rank 3 beside team 4, with no DIVERGED. -/
theorem test_last_verdict :
    let s := scored [(2, 80), (4, 130), (6, 200), (9, 260)]
      (listed [entry 2 5 10243 0 .answering] (inTurn 3 2 .turn (inRound 12 buzzRound .turn 905000 (station .team 5 2))))
    let t := after (.verdictTaken 0 12 3 2 1 130) (hearing s)
    (t.scu.team 2).total = 130 ∧ (t.scu.team 2).rights = 1 ∧ (t.scu.team 2).rank = 3 ∧ (t.scu.team 4).rank = 3 ∧
      t.rng.phase = .ended ∧ t.rck.running = false ∧ t.flagSet .diverged = false ∧ t.flagSet .scoreChanged = true := by
  decide +kernel
/-- "A choice round closed early": CLOSE (949,300) leads to CLOSING; CLOSE (195,000) would end the round. -/
theorem test_close_choice_round :
    let s := hearing (inRound 15 (choiceRound true) .live 950000 (station .team 14 3))
    (after (.closeTaken 0 15 949300) s).rng.phase = .closing ∧ (after (.closeTaken 0 15 949300) s).rng.closePoint = 949300 ∧
      (after (.closeTaken 0 15 195000) s).rng.phase = .ended := by decide +kernel
/-- "A choice round on the scoreboard": the REVEAL of key 2, NONEG clear. -/
theorem test_reveal_scores :
    let c (key stamp : Nat) : ChoiceRec := { key := key, stamp := stamp, desk := 1, changes := 1 }
    let s := scored [(2, 40), (3, 0), (5, 9900), (11, 75)] (inRound 15 (choiceRound true) .closing 1400000 (station .team 14 3))
    let u := { s with cht := ⟨(((s.cht.records.set 1 (c 1 74000)).set 2 (c 4 40002)).set 4 (c 2 32564)).set 10 (c 1 21875)⟩ }
    let t := after (.revealTaken 0 15 2) (hearing u)
    [2, 3, 5, 11].map (fun n => (t.scu.team n).total) = [15, -25, 9999, 50] ∧ (t.scu.team 5).rights = 1 ∧
      (t.scu.team 5).unconfirmed = true ∧ (t.scu.team 4).unconfirmed = true ∧ t.rng.correctKey = some 2 := by decide +kernel
/-- The same round had A been revealed: bonuses 42 and 0; and 33 for stamp 32,564. -/
theorem test_bonus_examples :
    [32564, 21875, 74000, 12500].map (speedBonus (loadRound 15 (choiceRound true))) = [33, 42, 0, 50] := by decide +kernel
/-- "Late claims and a teammate": VERDICT (1, 9, WRONG) at a station in step grants turn 2 at the same instant. -/
theorem test_grant_follows_verdict :
    let s := scored [(9, 300)]
      (listed [entry 9 27 10200 2 .answering, entry 4 11 10200 0 .waiting]
        (inTurn 1 9 .turn (inRound 12 buzzRound .turn 290000 (station .team 11 4))))
    let t := after (.verdictTaken 0 12 1 9 2 260) (hearing s)
    t.rng.phase = .turn ∧ t.rng.turn = 2 ∧ t.rng.answering = some 4 ∧ t.pnl.content.pos4 = .digit 5 ∧
      t.pnl.lamps.turn = .on := by decide +kernel
/-- "Teammates in FIRST mode": an earlier stamp replaces, an equal one does not. -/
theorem test_first_mode :
    let r := takeChoiceRecord .first 20 25005 1 (takeChoiceRecord .first 21 25006 3 .empty)
    r = { key := 1, stamp := 25005, desk := 20, changes := 2 } ∧ takeChoiceRecord .first 22 25005 2 r = r := by decide
/-- "A round that runs to the clock's end": saturation ends a claimless round. -/
theorem test_saturation_ends_round :
    let s := inRound 1 { buzzRound with armDelay := 250, window := 2000, settle := 255 } .live 16777215 (station .team 5 2)
    let t := after .roundClockSaturation s
    t.rng.phase = .ended ∧ t.rck.count = 16777215 ∧ t.rck.running = false ∧ t.flagSet .roundEnded = true := by decide +kernel
/-- "A pass that overtakes a timeout": the console's waiting TIMEOUT is withdrawn with VERDICT_SUPERSEDED. -/
theorem test_pass_supersedes_timeout :
    let s := listed [entry 7 19 10200 0 .answering]
      (inTurn 4 7 .held (inRound 12 buzzRound .held 600000 (station .console 0 0)))
    let u := sending .waiting [waitingFrame (.verdict 4 7 .timeout none) 0]
      { s with cnf := { s.cnf with verdictPending := some 4, verdictKind := .automatic } }
    let t := after (.passTaken 19 12 4 7) (hearing u)
    t.cnf.verdictPending = none ∧ t.flagSet .verdictSuperseded = true ∧ t.lcu.queue = [] ∧ t.rng.phase = .live := by decide +kernel

/-! ### Desk inputs and panel (04, 10) -/

/-- A desk in a round with an input whose press filter holds a capture. -/
def pressing (d : DeskInput) (capture : Nat) (s : State) : State :=
  setInput d { low := true, filter := .pressFilter capture, timer := .running 4000 } s

/-- "A buzzer round at three desks": capture 163,210 gives stamp 10,200 and a CLAIM, own claim PENDING, WAIT fast. -/
theorem test_buzz_press :
    let t := after (.pressAccepted .buzz) (idleLine (pressing .buzz 163210 (inRound 12 buzzRound .live 163410 (station .team 11 4))))
    t.lcu.queue.map QFrame.content = [.claim 10200 4] ∧ t.icu.record.ownClaim = .pending ∧
      t.icu.record.claimStamp = some 10200 ∧ t.pnl.lamps.wait = .fast := by decide +kernel
/-- The hold of desk 11: pass turn 2 at the press; at its end a PASS (turn 2, team 4). -/
theorem test_hold_passes :
    let s := listed [entry 4 11 10200 0 .answering]
      (inTurn 2 4 .turn (inRound 12 buzzRound .turn 300200 (station .team 11 4)))
    let u := { s with icu := { s.icu with record := { s.icu.record with ownClaim := .taken } } }
    let t := after (.pressAccepted .buzz) (pressing .buzz 300000 u)
    t.icu.record.passTurn = some 2 ∧ t.icu.hold = .running 1200000 ∧ t.lcu.queue = [] ∧
      (after .passHoldEnd t).lcu.queue.map QFrame.content = [.pass 2 4] := by decide +kernel
/-- "A choice round at one desk": a jump at 180,000 locks to 300,000 and shows 1.20; 260,000 is ignored; 412,000 is sent. -/
theorem test_key_jump :
    let t := after (.pressAccepted .keyA) (pressing .keyA 180000 (inRound 15 (choiceRound true) .reading 180400 (station .team 14 3)))
    t.icu.record.jumpLockEnd = 300000 ∧ t.icu.record.pendingKey = 0 ∧ t.pnl.lamps.lock = .fast ∧
      t.pnl.content = ⟨.blank, .digit 1, .digit 2, .digit 0, false, true⟩ := by decide +kernel
/-- R179, R182: with a jump lock of 0 the desk is JUMPED, showing 0.01, until the arm, and no longer. -/
theorem test_jump_lock_zero :
    let s := inRound 15 { choiceRound true with jumpLock := 0 } .reading 199999 (station .team 14 3)
    let u := { s with icu := { s.icu with record := { s.icu.record with jumped := true, jumpLockEnd := 200000 } } }
    (refresh u).pnl.lamps.lock = .fast ∧ (refresh u).pnl.content = ⟨.blank, .digit 0, .digit 0, .digit 1, false, true⟩ ∧
      (after .roundClockTick u).pnl.lamps = ⟨.off, .on, .off⟩ := by decide +kernel
theorem test_key_press :
    let s := inRound 15 (choiceRound true) .live 412400 (station .team 14 3)
    let u := { s with icu := { s.icu with record := { s.icu.record with jumped := true, jumpLockEnd := 300000 } } }
    (after (.pressAccepted .keyA) (pressing .keyA 260000 u)).lcu.queue = [] ∧
      (after (.pressAccepted .keyB) (pressing .keyB 412000 u)).lcu.queue.map QFrame.content = [.choice 25750 2 3] ∧
      (after (.pressAccepted .keyB) (pressing .keyB 412000 u)).pnl.content.pos4 = .b := by decide +kernel
/-- "A buzzer round at three desks": desk 5's bounce discards its capture, its next edge captures 163,900. -/
theorem test_bounce :
    let s := setInput .buzz { low := true, filter := .pressFilter 163880, timer := .running 2000 }
      (inRound 12 buzzRound .live 163900 (station .team 5 2))
    (after (.inputRisingEdge .buzz) s).icu.buzz.filter = .released ∧
      (after (.inputFallingEdge .buzz) (after (.inputRisingEdge .buzz) s)).icu.buzz.filter = .pressFilter 163900 := by
  decide +kernel

/-! ### The console, presence and the port (09, 11, 12, 13) -/

/-- "A buzzer round from the console": OPEN_ROUND gives round 12; a second one is PENDING; the check total of WRONG is 260. -/
theorem test_open_round :
    let s := station .console 0 0
    let u := commanded { s with cnf := { s.cnf with lastRound := 11 } }
    let t := after (.openRound buzzRound) u
    t.cmp.heldReply = [0, 7, 0x20, 0, 1, 12, 0] ∧ t.cnf.lastRound = 12 ∧
      (after (.openRound buzzRound) (commanded t)).cmp.heldReply = [0, 5, 0x20, 3, 2] := by decide +kernel
theorem test_check_total :
    let s := scored [(9, 300)] (inTurn 1 9 .turn (inRound 12 buzzRound .turn 280000 (station .console 0 0)))
    let t := after (.verdictCommand 2 0) (commanded (idleLine s))
    t.lcu.queue.map QFrame.content = [.verdict 1 9 .wrong (some 260)] ∧ t.cnf.verdictPending = some 1 ∧
      t.rng.answerRunning = false ∧ (after (.verdictCommand 2 2) (commanded s)).cmp.heldReply = [0, 5, 0x22, 2, 1] := by
  decide +kernel
/-- "A correction while a page is on the line": 200 becomes 215, page 1 is DIRTY. -/
theorem test_adjust_dirty :
    let s := sending .sending [sentFrame (.tally 1 (some (0, 200, 0, 0))) 0] (scored [(6, 200)] (station .console 0 0))
    let t := after (.adjust 6 15) (commanded s)
    t.cmp.heldReply = [0, 11, 0x25, 0, 1, 6, 0, 200, 0, 215, 2] ∧ t.cnf.dirty = [1] := by decide +kernel
/-- "A roll call after installation": the report of roll 7. -/
theorem test_roll_report :
    let s := station .console 0 0
    let u := { s with cnf := { s.cnf with
      rollState := .polling, currentRoll := some 7, window := some 20, windowTimer := .running 200000, replySet := [3, 14, 22, 58] } }
    (after .rollWindowExpiry u).cnf.report = { valid := true, id := 7, window := 20, desks := [3, 14, 22, 58], count := 4 } ∧
      (after .rollWindowExpiry u).flagSet .rollDone = true := by decide +kernel
/-- "How entries change at a shared desk number": the second desk 14's HELLO moves the seat from team 3 to team 5. -/
theorem test_shared_desk_number :
    let s := after (.helloTaken 14 0 1 3 7) (hearing (station .wall 58 0))
    let t := after (.helloTaken 14 0 1 5 8) (hearing s)
    s.prs.seated = [3] ∧ t.prs.seated = [5] ∧ (t.prs.entry 14).tag = 8 ∧ (t.scu.team 3).rank = 0 ∧ (t.scu.team 5).rank = 1 := by
  decide +kernel
/-- "Lengths at a glance": the list of the buzzer round at its end reads in 28 bytes; the first entry's last bytes. -/
theorem test_read_claims :
    let s := listed
      [{ entry 9 27 10200 2 .spent with outcome := some .wrong }, { entry 4 11 10200 0 .spent with outcome := some .timeout },
       entry 2 5 10243 0 .won] (inRound 12 buzzRound .ended 905000 (station .console 0 0))
    let t := after .readClaims (commanded s)
    t.cmp.heldReply.length = 28 ∧ t.cmp.heldReply.take 14 = [0, 28, 3, 0, 1, 12, 3, 9, 27, 0, 39, 216, 0x50, 0x40] := by
  decide +kernel
/-- "A console session at the port": IRQ_N is low once an enabled event is set, and high after CLEAR_EVENTS. -/
theorem test_interrupt :
    let s := station .console 0 0
    let u := commanded { s with cmp := { s.cmp with flags := 0b11 } }
    let t := after (.setEventMask 0b101110) u
    t.cmp.irqN = false ∧ t.cmp.mask = 0b101110 ∧ (after (.clearEvents 0xFFFF) (commanded t)).cmp.irqN = true ∧
      (after (.clearEvents 0xFFFF) (commanded t)).cmp.flags = 0 := by decide +kernel
/-- A run of NOPs keeps the reply and counts (R196). -/
theorem test_nop :
    (after .nop (commanded State.reset)).cmp.heldReply = State.reset.cmp.heldReply ∧
      (after .nop (commanded State.reset)).cmp.count = 1 := by decide +kernel

/-! ### The statements' hypotheses, each met: the machine, invariants, encodings, orders -/

/-- Desk 11 with three claims listed, team 9 answering, and a command waiting. -/
def busyDesk : State :=
  let s := listed [entry 9 27 10200 2 .answering, entry 4 11 10200 0 .waiting, entry 2 5 10243 0 .waiting]
    (inTurn 1 9 .turn (inRound 12 buzzRound .turn 170000 (scored [(2, 80), (4, 150), (9, 300)] (station .team 11 4))))
  refresh { sending .waiting [waitingFrame (.claim 10200 4) 3] s with pending := [.roundClockTick, .nop] }

theorem test_met_StepRunsFrontCommand :
    busyDesk.pending = .roundClockTick :: [.nop] ∧ State.reset.pending = [] := by decide +kernel
theorem test_met_ResetsPlaceEveryBlock : (commanded (station .team 11 4)).cmp.transfer = .shifting := by decide +kernel
theorem test_met_ClaimsStaySound : ClaimsSound busyDesk ∧ ∃ t, step busyDesk = .next t := ⟨by decide +kernel, _, rfl⟩
theorem test_met_QueueStaysSound : QueueSound busyDesk ∧ ∃ t, step busyDesk = .next t := ⟨by decide +kernel, _, rfl⟩
theorem test_met_BoundsStaySound : BoundsSound busyDesk ∧ ∃ t, step busyDesk = .next t := ⟨by decide +kernel, _, rfl⟩
theorem test_met_OutputsFollowState : OutputsAgree busyDesk ∧ ∃ t, step busyDesk = .next t := ⟨by decide +kernel, _, rfl⟩
theorem test_met_ScoresAndTablesStaySound :
    TablesSound busyDesk ∧ ScoresSound busyDesk ∧ ∃ t, step busyDesk = .next t := ⟨by decide +kernel, by decide +kernel, _, rfl⟩
theorem test_met_CommandRoundTrip :
    let c := Instr.storeWrite 3 0xFFFF true
    (wellFormed c = true ∧ encodeCommand c = some [0x0D, 3, 0xFF, 0xFF]) ∧
      (∀ row value pin, c = .storeWrite row value pin → pin = true) ∧ (∀ a b, c = .restart a b → a = true ∧ b = true) ∧
      (∀ code args, c ≠ .unknownCommand code args) := by
  refine ⟨by decide, ?_, ?_, ?_⟩ <;> intros <;> simp_all
theorem test_met_CommandRoundTrip_unknown :
    wellFormed (.unknownCommand 0xFF []) = true ∧ encodeCommand (.unknownCommand 0xFF []) = some [0xFF] := by decide
theorem test_met_KeyOrder :
    let a := entry 9 27 10200 2 .waiting
    let b := entry 4 11 10200 0 .waiting
    let c := entry 2 5 10243 0 .waiting
    a.team ≠ b.team ∧ keyBefore a b = true ∧ keyBefore b c = true ∧
      (waitingPart [a, c]).Pairwise (fun x y => keyBefore x y = true) ∧ (∀ x ∈ waitingPart [a, c], x.team ≠ b.team) := by decide
theorem test_met_KeyOrder_teammates :
    (entry 9 27 10200 2 .waiting).team = (entry 9 28 10201 2 .waiting).team ∧
      (entry 9 27 10200 2 .waiting).level = (entry 9 28 10201 2 .waiting).level := by decide
/-- P 1 and V 999 reach 0 at step 2; P 100 and k 15; P 0 and k 1. -/
theorem test_met_ReboundValue :
    (∀ v p, reboundChain v p 0 = v ∧ ∀ j, reboundChain v p (j + 1) = reboundChain v p j * p / 100) ∧
      reboundChain 999 1 2 = 0 ∧ reboundChain 999 100 15 = 999 ∧ reboundChain 999 0 1 = 0 :=
  ⟨fun _ _ => ⟨rfl, fun _ => rfl⟩, by decide⟩
/-- Stamps before the arm, in the last quantum before the close point, and beyond the window. -/
theorem test_met_SpeedBonus :
    let r := loadRound 15 (choiceRound true)
    0 < r.windowTicks ∧ 0 < r.grain ∧ r.closePoint ≤ r.armTicks + r.windowTicks ∧
      (12499 * r.grain : Int) - r.armTicks < 0 ∧ stampInBounds r 12500 = true ∧
      0 ≤ (74999 * r.grain : Int) - r.armTicks ∧ (74999 * r.grain : Int) - r.armTicks ≤ r.windowTicks ∧
      stampInBounds r 74999 = true ∧ (r.windowTicks : Int) < 75001 * r.grain - r.armTicks := by decide
theorem test_met_DeltasAndRanks :
    (-9990 + -25 : Int) < -9999 ∧ (9999 : Int) < 9980 + 50 ∧
      let records := (scored [(1, 120), (2, 90), (3, 120)] (station .team 5 2)).scu.records
      ∃ x ∈ records, ∃ y ∈ records, ∃ z ∈ records, ∃ u ∈ records,
        x.seated = true ∧ (∀ w ∈ records, w.seated = true → w.total ≤ x.total) ∧ y.seated = true ∧ y.total < x.total ∧
          z.seated = true ∧ x.total = z.total ∧ u.seated = false := by decide +kernel
theorem test_met_QueuePositions :
    let es := busyDesk.clt.entries
    ListOrdered es ∧ es = [] ++ entry 9 27 10200 2 .answering :: [entry 4 11 10200 0 .waiting, entry 2 5 10243 0 .waiting] ∧
      (∀ e ∈ es, e.team ≠ 16) ∧ (∃ e ∈ es, e.status = .answering) ∧
      waitingPart es = entry 4 11 10200 0 .waiting :: [entry 2 5 10243 0 .waiting] := by decide +kernel
theorem test_met_LineFollowsConsole :
    let console := scored [(9, 300)] (inTurn 16 9 .turn (inRound 12 buzzRound .turn 280000 (station .console 0 0)))
    ScoresSound console ∧ ScoresSound busyDesk ∧ console.suu.identity.role = .console ∧
      busyDesk.suu.identity.role ≠ .console := by decide +kernel

/-- A station at the settle deadline of a list's head, the count having just reached it. -/
def deadlineState : State := afterClaims 167200

/-- A closed round with no claim, the count at close point plus settle. -/
def settledOut : State :=
  let s := inRound 12 buzzRound .live 3154000 (station .team 11 4)
  { s with rng := { s.rng with closed := true } }

theorem test_met_GrantsAndSettlingOut :
    (deadlineState.rng.phase = .live ∧ deadlineState.rng.format = .buzz ∧
      (∀ x ∈ deadlineState.clt.entries, x.status ≠ .answering) ∧
      (∃ e ∈ deadlineState.clt.entries.head?, ∃ rest ∈ [deadlineState.clt.entries.tail],
        waitingPart deadlineState.clt.entries = e :: rest ∧
          e.stamp * deadlineState.rng.grain + deadlineState.rng.settleTicks ≤ deadlineState.rck.count)) ∧
    (QueueSound settledOut ∧ settledOut.rng.phase = .live ∧ settledOut.rng.format = .buzz ∧ settledOut.rng.closed = true ∧
      (∀ x ∈ settledOut.clt.entries, x.status ≠ .waiting ∧ x.status ≠ .answering) ∧
      settledOut.rng.closePoint + settledOut.rng.settleTicks ≤ settledOut.rck.count) := by decide +kernel

/-- Transmitters that are HALTED and MUTED. -/
def haltedStation : State := sending .halted [] (station .console 0 0)
def mutedStation : State := let s := sending .muted [] (station .team 11 4); { s with suu := { s.suu with muted := true } }

theorem test_met_OnlyTheirCommandsChange_shut :
    (isReset .lineIdle = false ∧ haltedStation.lcu.tx = .halted ∧ ∃ t, exec .lineIdle haltedStation = .next t) ∧
      (mutedStation.lcu.tx = .muted ∧ mutedStation.suu.muted = true ∧ ∃ t, exec .lineIdle mutedStation = .next t) :=
  ⟨⟨by decide, by decide, _, rfl⟩, by decide, by decide, _, rfl⟩
theorem test_met_RoundBegunByOpen :
    let s := inRound 12 buzzRound .ended 905000 (station .team 11 4)
    isReset .roundClockTick = false ∧ isOpening .roundClockTick = false ∧ s.rng.phase = .ended ∧
      State.reset.rng.phase = .unsynced ∧ (∃ t, exec .roundClockTick s = .next t) ∧
      ∃ t, exec .roundClockTick State.reset = .next t := ⟨rfl, rfl, rfl, rfl, ⟨_, rfl⟩, _, rfl⟩
theorem test_met_OnlyTheirCommandsChange :
    isReset (.claimTaken 11 12 10200 4) = false ∧ isScoring (.claimTaken 11 12 10200 4) = false ∧
      (∀ named, Instr.claimTaken 11 12 10200 4 ≠ .clearEvents named) ∧
      ∃ t, exec (.claimTaken 11 12 10200 4) (hearing busyDesk) = .next t :=
  ⟨rfl, rfl, fun _ => Instr.noConfusion, _, rfl⟩

/-! ### The hypotheses met: start-up, store, line -/

/-- A station in LOADING with these straps. -/
def loading (strap1 strap0 : Bool) (row0 : Half) : State :=
  { State.reset with suu := { Suu.reset with strap1 := strap1, strap0 := strap0 }, sto := { Sto.reset with row0 := row0 } }

theorem test_met_StartUpRows :
    (loading true false 0xFC00).suu.startUp = .loading ∧ (loading true true 0).suu.startUp = .loading ∧
      (fillIdentity (loading false false 0x0401)).reason = .none ∧ (fillIdentity (loading false false 0xC010)).reason = .none ∧
      (fillIdentity (loading false false 0xC411)).reason = .badDesk ∧
      (fillIdentity (loading false false 0xC011)).reason = .badTeam ∧ (fillIdentity (loading false true 0)).reason = .none ∧
      (fillIdentity (loading true false 0xE000)).reason = .none ∧ (fillIdentity (loading true true 0)).reason = .badRole := by
  decide +kernel

/-- A station in JOINING whose quiet wait runs. -/
def joining (tx : TxState) : State :=
  let s := sending tx [] (station .wall 60 0)
  { s with suu := { s.suu with startUp := .joining, joinWait := .running 5000 } }

theorem test_met_StartUpRows_wait :
    (joining .idle).suu.startUp = .joining ∧ (joining .idle).suu.joinWait.on = true ∧ (joining .idle).lcu.tx ≠ .halted ∧
      (joining .idle).lcu.tx ≠ .muted ∧ (joining .idle).suu.identity.role ≠ .none ∧
      frameAt .hello (joining .idle).lcu.queue = none ∧ (joining .halted).suu.startUp = .joining ∧
      (joining .halted).suu.joinWait.on = true ∧ (joining .halted).lcu.tx = .halted := by decide

/-- A station with a store write running. -/
def writing : State :=
  let s := commanded (station .team 11 4)
  { s with sto := { s.sto with busy := true, write := some (3, 0x1234), timer := .running 8000 } }

theorem test_met_StoreAccess :
    (commanded (station .team 11 4)).cmp.transfer = .shifting ∧ (commanded (station .team 11 4)).sto.busy = false ∧
      (3 < (4 : Byte).toNat) ∧ ((3 : Byte).toNat ≤ 3) ∧ writing.cmp.transfer = .shifting ∧ writing.sto.busy = true ∧
      writing.sto.timer.on = true ∧ writing.sto.write = some (3, 0x1234) := by decide

/-- A desk with a CLAIM that has failed twice, in this transmitter state, in a frame with these cells. -/
def claiming (tx : TxState) (decode : Decode) (cells : List CellReading) : State :=
  let s := inRound 12 buzzRound .live 170000 (station .team 27 9)
  let f := if attemptState tx then sentFrame (.claim 10200 9) 2 else waitingFrame (.claim 10200 9) 2
  { sending tx [f] s with lif := { s.lif with decode := decode, cells := cells } }

/-- The claim as it is sent. -/
def claimCells : List Bool := sentBits (claiming .slots .tail [])

/-- What the line shows of a bit sent cleanly. -/
def pulseOf (b : Bool) : CellPulse := .pulse (if b then 2000 else 6000)

/-- A recovery with both timers running, and a fault memory that runs. -/
def recovering (queue : List QFrame) : State :=
  let s := sending .recovering queue (station .team 27 9)
  { s with lcu := { s.lcu with
    recoveryDeadline := .running 200000, recoveryQuiet := .running 10000, faultMemory := .running 1000000 } }

/-- A receiver in a frame with these cells, this long after the last boundary, its present pulse a cell's or not. -/
def inCells (cells : List CellReading) (since : Nat) (opened : Bool) : State :=
  let s := hearing (station .team 27 9)
  { s with lif := { s.lif with cells := cells, since := since, opened := opened } }

/-- A receiver that has read a CLAIM of desk 27, in TAIL with this reading of the ack slot. -/
def tail (bad : Bool) (ack : Option CellReading) : State :=
  let cells := cleanCells claimCells
  let s := inCells (if bad then cells.set 30 .widthError else cells) 2000 false
  let u := { s with suu := { s.suu with identity := { s.suu.identity with desk := 5 } } }
  { u with lif := { u.lif with decode := .tail, ack := ack } }

/-- Edges at the ends of R17's and R18's spans: 7.0 µs is early, 7.001 µs and 9.0 µs open, 9.001 µs is too late; and a line that falls
from a first cell, from the last CRC cell and from the ack slot. -/
theorem test_met_LevelChanges :
    (let s := inCells [.one] 2000 false
     s.lif.dominant = false ∧ s.lif.decode ≠ .hunt ∧ s.lif.ack = none ∧ s.lif.cells = [] ++ [.one] ∧
       s.lif.since + 5000 ≤ 7000 ∧ 7000 < s.lif.since + 5001 ∧ s.lif.since + 7000 ≤ 9000 ∧ 9000 < s.lif.since + 7001) ∧
    (tail false (some .zero)).lif.ack = some .zero ∧ (tail false none).lif.dominant = false ∧
    (station .team 27 9).lif.decode = .hunt ∧
    (let s := claiming .slots .tail (cleanCells claimCells)
     s.lcu.tx = .slots ∧ s.lif.dominant = false ∧ s.lif.decode = .tail ∧ s.lif.ack = none ∧ s.lif.since + 9000 ≤ 9000 ∧
       9000 < s.lif.since + 9001 ∧ s.lif.since + 15000 ≤ 15000 ∧ 15000 < s.lif.since + 15001 ∧
       s.lif.since + 17000 ≤ 17000 ∧ 17000 < s.lif.since + 17001) ∧
    (let s := inCells (cleanCells claimCells).dropLast 0 true
     let u := { s with lif := { s.lif with dominant := true } }
     u.lif.dominant = true ∧ u.lif.decode = .frame ∧ u.lif.opened = true) ∧
    ([] <+: cleanCells (wireBits ⟨27, 12, .claim 10200 9⟩)) := by decide +kernel
theorem test_met_LineRows :
    (claiming .waiting .hunt []).lif.dominant = false ∧
      (claiming .waiting .hunt []).lif.decode = .hunt ∧ (claiming .waiting .hunt []).lcu.tx = .waiting ∧
      (claiming .waiting .hunt []).lcu.queue ≠ [] ∧
      (let s := claiming .slots .hunt []
       s.lif.decode = .hunt ∧ s.lif.dominant = false ∧ s.lcu.tx = .slots ∧ QueueSound s ∧
         PlainAttempt (sentFrame (.claim 10200 9) 2) s ∧ (sentFrame (.claim 10200 9) 2).attempts < 3) ∧
      (let s := station .team 27 9
       s.lif.decode = .hunt ∧ s.lif.dominant = false ∧ s.lcu.tx ≠ .slots ∧ s.lcu.tx ≠ .waiting) := by
  unfold PlainAttempt; decide +kernel
theorem test_met_LineRows_mark_and_run :
    (let s := idleLine (station .team 27 9)
     let u := { s with lif := { s.lif with dominant := true } }
     u.suu.startUp = .joined ∧ u.lif.decode = .hunt ∧ u.lif.idleSeen = true ∧ u.lif.dominant = true) ∧
    (let s := hearing (station .team 27 9)
     let cells := (List.replicate 22 (CellPulse.pulse 2000)) ++ [.pulse 4000]
     s.lif.decode = .frame ∧ s.lcu.tx ≠ .contending ∧ s.lcu.tx ≠ .sending ∧ s.lcu.tx ≠ .slots ∧
       s.lif.cells <+: cells.map readCell ∧ beginsRun (cells.map readCell) = true) := by decide +kernel
/-- A sender before its first cell and inside its frame, a sender in its slots, receivers of a clean frame and of one with a width
error in TAIL, an objection run, a recovery. -/
theorem test_met_LineDriven :
    (let s := claiming .contending .hunt []
     s.suu.startUp = .joined ∧ s.lif.cells = [] ∧ (sentBits s)[0]? = some false ∧ QueueSound s) ∧
    (let s := claiming .sending .frame (cleanCells (claimCells.take 12))
     s.lcu.tx = .sending ∧ s.lif.cells ≠ [] ∧ ∃ b ∈ [true, false], (sentBits s)[12]? = some b) ∧
    (let s := claiming .slots .tail (cleanCells claimCells)
     s.lcu.tx = .slots ∧ s.lif.dominant = false ∧ s.lif.decode = .tail ∧ s.lif.ack = none ∧
       15000 < s.lif.since + 15001 ∧ s.lif.since + 17000 ≤ 17000) ∧
    ((tail false none).lif.decode = .tail ∧ (tail false none).lif.ack = none ∧ (tail false none).lcu.tx = .idle ∧
      (tail false none).lif.dominant = false ∧
      receive (tail false none).lif.cells = .clean ⟨27, 12, .claim 10200 9⟩ ∧
      7000 < (tail false none).lif.since + 6000 ∧ (tail false none).lif.since + 6000 ≤ 9000) ∧
    ((tail true (some .one)).lif.ack = some .one ∧
      receive (tail true (some .one)).lif.cells = .errored .width 30) ∧
    (recovering []).lcu.tx = .recovering := by decide +kernel
theorem test_met_Contention :
    (let s := claiming .contending .hunt []
     s.lcu.tx = .contending ∧ 9 < 10 ∧ (sentBits s)[9]? = some true ∧ QueueSound s ∧
       attempted s = some (sentFrame (.claim 10200 9) 2) ∧ PlainAttempt (sentFrame (.claim 10200 9) 2) s) ∧
      (claiming .sending .frame []).lcu.tx = .sending := by
  unfold PlainAttempt; decide +kernel
/-- In contention a width error in the last cell and a 1 over a 0 in the first; in sending the first cell after it. -/
theorem test_met_BitMismatch :
    let s := claiming .contending .hunt []
    ((sentBits s)[9]? = some true ∧ readCell (.pulse 4000) ≠ .ofBit true ∧ readCell (.pulse 4000) ≠ .zero) ∧
      ((sentBits s)[0]? = some false ∧ readCell (.pulse 2000) ≠ .ofBit false) ∧ s.lcu.tx = .contending ∧ QueueSound s ∧
      PlainAttempt (sentFrame (.claim 10200 9) 2) s := by
  unfold PlainAttempt; exact ⟨by decide, by decide, by decide, by decide +kernel, by decide +kernel⟩
theorem test_met_BitMismatch_sending :
    let s := claiming .sending .frame []
    ((sentBits s)[10]? = some false ∧ readCell (.pulse 2000) ≠ .ofBit false) ∧ s.lcu.tx = .sending ∧ QueueSound s ∧
      PlainAttempt (sentFrame (.claim 10200 9) 2) s := by
  unfold PlainAttempt; exact ⟨by decide +kernel, by decide, by decide +kernel, by decide +kernel⟩
/-- The last CRC cell. -/
theorem test_met_BitMismatch_last :
    let s := claiming .sending .frame []
    (∃ b ∈ [true, false], (sentBits s)[(sentBits s).length - 1]? = some b ∧ readCell (.pulse 4000) ≠ .ofBit b) ∧
      10 ≤ (sentBits s).length - 1 ∧ s.lcu.tx = .sending := by decide +kernel
theorem test_met_FrameDiscarded :
    (let s := claiming .slots .tail (cleanCells claimCells)
     let f := sentFrame (.claim 10200 9) 2
     s.suu.startUp = .joined ∧ s.lif.decode = .tail ∧ s.lcu.tx = .slots ∧
       (claimCells.map pulseOf).map readCell = s.lif.cells ∧ readCell (.pulse 6000) ≠ .missing ∧
       readCell (.pulse 6000) = .zero ∧ readCell (.pulse 4000) = .widthError ∧ readCell .missing = .missing ∧
       QueueSound s ∧ PlainAttempt f s ∧ f.attempts < 3) ∧
    (let s := claiming .waiting .frame []
     s.lif.decode = .frame ∧ s.lcu.tx ≠ .contending ∧ s.lcu.tx ≠ .sending ∧ s.lcu.tx ≠ .slots ∧
       s.lif.cells <+: (claimCells.map pulseOf).map readCell ∧
       (∃ f ∈ [(⟨27, 12, .claim 10200 9⟩ : Frame)], receive ((claimCells.map pulseOf).map readCell) = .clean f) ∧
       receive ((claimCells.map pulseOf).map readCell |>.set 30 .widthError) = .errored .width 30) := by
  unfold PlainAttempt; decide +kernel

/-- A state with its line stuck for 1 ms. -/
def stuck (s : State) : State := { s with lif := { s.lif with dominant := true } }

theorem test_met_LineFaultReported :
    (let s := stuck haltedStation
     s.suu.startUp = .joined ∧ s.lif.dominant = true ∧ s.lif.faultFound = false ∧ s.lcu.tx = .halted) ∧
    (let s := stuck (claiming .waiting .frame [])
     QueueSound s ∧ s.lcu.tx = .waiting ∧ s.lcu.faultMemory = .off) ∧
    (let s := stuck (claiming .slots .tail [])
     QueueSound s ∧ s.lcu.tx = .slots ∧ s.lcu.faultMemory = .off ∧ PlainAttempt (sentFrame (.claim 10200 9) 2) s) ∧
    (let s := stuck (recovering [waitingFrame (.claim 10200 9) 2])
     QueueSound s ∧ s.lcu.tx = .recovering ∧ s.suu.startUp = .joined ∧ s.lif.faultFound = false) ∧
    (let s := stuck (claiming .slots .tail [])
     let u := { s with lcu := { s.lcu with faultMemory := .running 1000000 } }
     QueueSound u ∧ u.lcu.tx = .slots ∧ u.lcu.faultMemory.on = true ∧
       attempted u = some (sentFrame (.claim 10200 9) 2)) := by
  unfold PlainAttempt
  exact ⟨by decide +kernel, by decide +kernel, by decide +kernel, by decide +kernel, by decide +kernel⟩

theorem test_met_RecoveryEnds :
    (recovering []).lcu.tx = .recovering ∧ (recovering []).lcu.recoveryQuiet.on = true ∧
      (recovering []).lcu.recoveryDeadline.on = true ∧ (recovering []).lcu.queue = [] ∧
      (recovering []).suu.startUp = .joined ∧ (recovering []).lcu.faultMemory.on = true ∧
      (recovering [waitingFrame (.claim 10200 9) 2]).lcu.tx = .recovering ∧
      (recovering [waitingFrame (.claim 10200 9) 2]).lcu.recoveryQuiet.on = true ∧
      (recovering [waitingFrame (.claim 10200 9) 2]).lcu.queue ≠ [] ∧
      QueueSound (recovering [waitingFrame (.claim 10200 9) 2]) := by decide +kernel
theorem test_met_HandOver :
    (QueueSound haltedStation ∧ haltedStation.lcu.tx = .halted) ∧
    (let s := sending .waiting [waitingFrame (.choice 30000 2 9) 1] (station .team 27 9)
     QueueSound s ∧ s.lcu.tx ≠ .halted ∧ s.lcu.tx ≠ .muted ∧ s.suu.startUp = .joined ∧
       s.suu.identity.role.hasPlace .claim = true ∧ frameAt .claim s.lcu.queue = none ∧
       frameAt .choice s.lcu.queue = some (waitingFrame (.choice 30000 2 9) 1) ∧
       (waitingFrame (.choice 30000 2 9) 1).withdrawn = false) ∧
    (let s := claiming .slots .tail []
     QueueSound s ∧ frameAt .claim s.lcu.queue = some (sentFrame (.claim 10200 9) 2) ∧ Place.claim ≠ .choice) :=
  ⟨by decide +kernel, by decide +kernel, by decide +kernel⟩
/-- Attempts with a mark, with pending content, at their fourth count, and of a HELLO; the console's dirty page and its AUTOMATIC
VERDICT in HELD at their fourth count. -/
theorem test_met_AttemptEnds :
    (∀ f ∈ [sentFrame (.claim 10200 9) 3, { sentFrame (.claim 10200 9) 0 with withdrawn := true },
        { sentFrame (.choice 30000 2 9) 1 with pending := some (.choice 31000 3 9) }, sentFrame (.hello 1 9 0) 2],
      QueueSound (sending .slots [f] (station .team 27 9)) ∧ attempted (sending .slots [f] (station .team 27 9)) = some f) ∧
    (∀ f ∈ [sentFrame (.tally 1 none) 3, sentFrame (.verdict 4 7 .timeout none) 3],
      let s := sending .slots [f] (inTurn 4 7 .held (inRound 12 buzzRound .held 600000 (station .console 0 0)))
      let u := { s with cnf := { s.cnf with dirty := [1], verdictPending := some 4, verdictKind := .automatic } }
      QueueSound u ∧ attempted u = some f ∧ u.rng.phase = .held ∧ u.rng.answering = some 7) ∧
    AttemptEnd.unheard.counted = true ∧ AttemptEnd.unheard ≠ .taken := by
  decide +kernel

/-! ### The hypotheses met: takings -/

theorem test_met_OpenTaken :
    Takes .open_ ⟨0, 12, .open_ buzzRound⟩ (hearing busyDesk) ∧ TablesSound (hearing busyDesk) ∧ QueueSound (hearing busyDesk) := by
  decide +kernel
/-- A CLOSE for the round, before the arm, at the arm, one tick after it, and for another round. -/
theorem test_met_CloseTaken :
    let s := hearing busyDesk
    (∀ point ∈ [149999, 150000, 150001], Takes .close ⟨0, 12, .close (BitVec.ofNat 24 point)⟩ s) ∧ Takes .close ⟨0, 13, .close 9⟩ s ∧
      TablesSound s ∧ QueueSound s ∧ s.rng.round = 12 ∧ s.rng.phase = .turn ∧ s.rng.armTicks = 150000 := by decide +kernel
/-- In step; out of step, the sixteenth turn of team 16 among them; and in ENDED. -/
theorem test_met_VerdictInFull :
    let s := hearing busyDesk
    Takes .verdict ⟨0, 12, .verdict 1 9 2 260⟩ s ∧ Takes .verdict ⟨0, 12, .verdict 16 16 5 0⟩ s ∧ TablesSound s ∧ QueueSound s ∧
      ScoresSound s ∧ s.suu.identity.role = .team ∧ s.rng.round = 12 ∧ s.rng.format = .buzz ∧ s.rng.phase = .turn ∧
      s.rng.turn = 1 ∧ s.rng.answering = some 9 ∧ outcomeOfCode 2 = some .wrong ∧ outcomeOfCode 5 = some .void :=
  ⟨by decide +kernel, by decide +kernel, by decide +kernel, by decide +kernel, by decide +kernel, by decide +kernel⟩
theorem test_met_VerdictInFull_ended :
    let s := hearing { busyDesk with rng := { busyDesk.rng with phase := .ended } }
    Takes .verdict ⟨0, 12, .verdict 1 9 2 260⟩ s ∧ TablesSound s ∧ QueueSound s ∧ ScoresSound s ∧ s.rng.phase = .ended ∧
      s.rng.turn = 1 ∧ s.rng.answering = some 9 := by decide +kernel
/-- With an entry of the team, with none, and with a rival ANSWERING. -/
theorem test_met_AlignmentPlacesTurn :
    let es := busyDesk.clt.entries
    ListOrdered es ∧ (∃ e ∈ es, e.team = 2 ∧ e.status ≠ .answering) ∧ (∀ e ∈ es, e.team ≠ 16) ∧
      ∃ e ∈ es, e.team ≠ 2 ∧ e.status = .answering := by decide +kernel
/-- Teams 0 and 17; turns 0 and 17; outcomes 0 and 6; another round; a turn that has ended. -/
theorem test_met_VerdictLimited :
    let s := hearing busyDesk
    TablesSound s ∧ QueueSound s ∧ ScoresSound s ∧ s.suu.identity.role = .team ∧ s.rng.round = 12 ∧ s.rng.turn = 1 ∧
      ∀ v ∈ ([(12, 1, 0, 2), (12, 1, 17, 2), (12, 0, 9, 2), (12, 17, 9, 2), (12, 2, 9, 0), (12, 2, 9, 6), (11, 2, 9, 2)] :
          List (Nat × Nat × Nat × Nat)),
        Takes .verdict ⟨0, byteOf v.1, .verdict (byteOf v.2.1) (byteOf v.2.2.1) (byteOf v.2.2.2) 0⟩ s :=
  ⟨by decide +kernel, by decide +kernel, by decide +kernel, by decide, by decide, by decide, by decide +kernel⟩
theorem test_met_VerdictLimited_between_turns :
    let s := hearing { busyDesk with rng := { busyDesk.rng with answering := none } }
    Takes .verdict ⟨0, 12, .verdict 1 9 2 0⟩ s ∧ TablesSound s ∧ QueueSound s ∧ ScoresSound s ∧ s.rng.turn = 1 ∧ s.rng.answering = none := by
  decide +kernel

/-- The console in turn t of team 9, its VERDICT for it waiting or not. -/
def ruling (turn : Nat) (queue : List QFrame) (marker : Option Nat) : State :=
  let s := hearing (listed [entry 9 27 10200 2 .answering] (inTurn turn 9 .turn (inRound 12 buzzRound .turn 170000
    (station .console 0 0))))
  { sending (if queue.isEmpty then .idle else .waiting) queue s with cnf := { s.cnf with verdictPending := marker } }

/-- Turns 15 and 16, from desks 1 and 48, and a PASS of another turn. -/
theorem test_met_PassTaken :
    ∀ turn ∈ [15, 16],
      TablesSound (ruling turn [] none) ∧ QueueSound (ruling turn [] none) ∧ (ruling turn [] none).rng.turn = turn ∧
        (ruling turn [] none).rng.answering = some 9 ∧ (ruling turn [] none).rng.phase = .turn ∧
        Takes .pass ⟨1, 12, .pass (byteOf turn) 9⟩ (ruling turn [] none) ∧
        Takes .pass ⟨48, 12, .pass (byteOf turn) 9⟩ (ruling turn [] none) ∧
        Takes .pass ⟨48, 12, .pass 1 9⟩ (ruling turn [] none) := by decide +kernel
theorem test_met_PassTaken_superseding :
    let s := ruling 15 [waitingFrame (.verdict 15 9 .wrong none) 0] (some 15)
    Takes .pass ⟨27, 12, .pass 15 9⟩ s ∧ TablesSound s ∧ QueueSound s ∧ s.suu.identity.role = .console ∧
      s.cnf.verdictPending = some 15 ∧ s.rng.answering = some 9 ∧ s.rng.phase = .turn := by decide +kernel
/-- A new team at both ends of the stamp bounds 9,375 to 196,874, and a team that waits. -/
theorem test_met_ClaimTaken :
    let s := hearing busyDesk
    (∀ x ∈ [9375, 196874], Takes .claim ⟨48, 12, .claim (BitVec.ofNat 24 x) 6⟩ s ∧ claimAccepted s.rng 12 x 6 = true) ∧
      Takes .claim ⟨48, 12, .claim 10199 4⟩ s ∧ TablesSound s ∧ QueueSound s ∧ (∀ e ∈ s.clt.entries, e.team ≠ 6) ∧
      s.clt.entries.find? (fun e => e.team == 4) = some (entry 4 11 10200 0 .waiting) := by decide +kernel
theorem test_met_ClaimTaken_overtaken :
    ∀ phase ∈ [Phase.live, .turn],
      let s := hearing { busyDesk with
        rng := { busyDesk.rng with phase := phase }
        icu := { busyDesk.icu with record := { busyDesk.icu.record with ownClaim := .pending, claimStamp := some 10200 } } }
      Takes .claim ⟨12, 12, .claim 10200 4⟩ s ∧ TablesSound s ∧ QueueSound s ∧ s.suu.identity.team = 4 ∧ s.rng.round = 12 ∧
        s.icu.record.ownClaim = .pending ∧ s.icu.record.claimStamp = some 10200 ∧ holds .claim s = true := by decide +kernel

/-- A choice round in CLOSING with team 3's record held. -/
def choosing (change : Bool) : State :=
  let s := hearing (scored [(3, 10)] (inRound 15 (choiceRound change) .closing 1300000 (station .team 14 3)))
  { s with
    cht := ⟨s.cht.records.set 2 { key := 2, stamp := 25750, desk := 14, changes := 255 }⟩
    rng := { s.rng with closed := true } }

/-- In both modes: both ends of the stamp bounds 12,500 to 74,999, an empty record, a record that takes and one that does not. -/
theorem test_met_ChoiceTaken :
    ∀ change ∈ [false, true],
      TablesSound (choosing change) ∧ QueueSound (choosing change) ∧
        (∀ x ∈ [12500, 25750, 74999], ∀ k ∈ [1, 2, 4], ∀ m ∈ [3, 16],
          Takes .choice ⟨48, 15, .choice (BitVec.ofNat 24 x) (byteOf k) (byteOf m)⟩ (choosing change) ∧
            choiceAccepted (choosing change).rng 15 x k m = true) ∧
        ((choosing change).cht.team 16).key = 0 ∧ ((choosing change).cht.team 3).stamp = 25750 ∧
        (choosing change).rng.mode = (if change then .change else .first) := by decide +kernel
theorem test_met_TallyTaken :
    (∀ page ∈ [0, 3, 4, 255], canTake ⟨0, 12, .tally (byteOf page) 120 90 120 (-20)⟩ (hearing busyDesk) = true) ∧
      TablesSound (hearing busyDesk) ∧ ScoresSound (hearing busyDesk) ∧ (hearing busyDesk).lcu.tx ≠ .slots ∧
      (hearing busyDesk).suu.identity.desk ≠ 0 := by decide +kernel

/-- A void, a key, and a key past 4, in CLOSING. -/
theorem test_met_RevealTaken :
    (∀ key ∈ [0, 4, 5], Takes .reveal ⟨0, 15, .reveal (byteOf key)⟩ (choosing true)) ∧ TablesSound (choosing true) ∧
      QueueSound (choosing true) ∧ ScoresSound (choosing true) ∧ (choosing true).suu.identity.role ≠ .console ∧
      (15 : Byte).toNat = (choosing true).rng.round ∧ (choosing true).rng.phase = .closing := by decide +kernel
theorem test_met_RollTaken :
    let s := hearing (station .wall 63 0)
    Receives ⟨0, 0, .roll 7 20⟩ s ∧ TablesSound s ∧ s.suu.identity.role = .wall ∧ s.suu.identity.desk ≠ 0 ∧
      s.suu.muted = false ∧ s.lcu.tx ≠ .halted ∧ s.lcu.tx ≠ .muted ∧ s.suu.startUp = .joined ∧
      frameAt .present s.lcu.queue = none ∧
      (let u := sending .waiting [waitingFrame (.present 3 0 6 0) 1] s
       Receives ⟨0, 0, .roll 7 20⟩ u ∧ TablesSound u ∧ u.lcu.tx ≠ .muted ∧ frameAt .present u.lcu.queue ≠ none) := by
  decide +kernel
/-- The stations that do not answer: in JOINING, muted, HALTED. -/
theorem test_met_RollTaken_silent :
    let s := hearing (station .wall 63 0)
    let joining : State := { s with suu := { s.suu with startUp := .joining } }
    let muted : State := hearing mutedStation
    let halted : State := sending .halted [] s
    (∀ u ∈ [joining, muted, halted], Receives ⟨0, 0, .roll 7 20⟩ u ∧ TablesSound u ∧
      (u.suu.identity.role = .team ∨ u.suu.identity.role = .wall)) ∧
      joining.suu.startUp = .joining ∧ muted.suu.muted = true ∧ halted.lcu.tx = .halted := by decide +kernel
theorem test_met_SenderDescribed :
    let s := hearing (station .console 0 0)
    TablesSound s ∧ ScoresSound s ∧ QueueSound s ∧ Takes .present ⟨63, 0, .present 1 16 7 7⟩ s ∧ (63 : Desk) ≠ 0 ∧
      Takes .hello ⟨63, 0, .hello 1 17 9⟩ s ∧ s.suu.identity.role = .console ∧
      (hearing (station .wall 60 0)).suu.identity.role ≠ .console ∧ Takes .hello ⟨14, 0, .hello 1 3 9⟩ (hearing (station .wall 60 0)) :=
  ⟨by decide +kernel, by decide +kernel, by decide +kernel, by decide +kernel, by decide, by decide +kernel, by decide,
    by decide, by decide +kernel⟩
theorem test_met_SenderChecks :
    (Receives ⟨49, 12, .claim 10200 4⟩ (hearing busyDesk) ∧ TablesSound (hearing busyDesk) ∧
      senderAllowed 49 (.claim 10200 4) = false) ∧
    (let s := hearing busyDesk
     canTake ⟨11, 12, .claim 10200 4⟩ s = true ∧ s.lcu.tx ≠ .slots ∧ (11 : Desk).toNat = s.suu.identity.desk ∧
       s.suu.muted = false ∧ s.lcu.tx ≠ .halted ∧ s.lcu.queue ≠ [] ∧ senderAllowed 11 (.close 9) = false ∧
       canTake ⟨11, 12, .close 9⟩ s = true) ∧
    (let s := hearing mutedStation
     canTake ⟨11, 12, .close 9⟩ s = true ∧ s.lcu.tx ≠ .slots ∧ (11 : Desk).toNat = s.suu.identity.desk ∧
       s.suu.muted = true ∧ TablesSound s) ∧
    (let s := sending .halted [] (hearing busyDesk)
     canTake ⟨11, 12, .close 9⟩ s = true ∧ s.suu.muted = false ∧ s.lcu.tx = .halted) := by decide +kernel
/-- R13, R14, R43, R50: a duplicate at a desk with a CLAIM queued drops it; a second one raises DUPLICATE alone. -/
theorem test_duplicate_mutes :
    let s := hearing busyDesk
    let f : Frame := ⟨11, 12, .close 9⟩
    let t := after (takingOf f) s
    let u := after (takingOf f) { hearing t with cmp := { t.cmp with flags := 0 } }
    (t.lcu.tx = .muted ∧ t.lcu.queue = [] ∧ t.flagSet .duplicate = true ∧ t.flagSet .txDropped = true ∧
      t.icu.record.ownClaim = .dropped ∧ t.pnl.flash.on = true) ∧
      u.cmp.flags = Event.duplicate.flag ∧ u.lcu = { t.lcu with domFrame := none } ∧ u.suu = t.suu := by decide +kernel
/-- A station in the slots of its own attempt. -/
def inTail (c : Content) (s : State) : State :=
  let u := sending .slots [sentFrame c 0] s
  { u with lif := { u.lif with decode := .tail, cells := cleanCells (sentBits u) } }

/-- The console's own ROLL. -/
theorem test_met_RollTaken_own :
    let s := inTail (.roll 7 20) (station .console 0 0)
    canTake ⟨0, 12, .roll 7 20⟩ s = true ∧ TakesOwn .roll s ∧ TablesSound s ∧ QueueSound s ∧ s.suu.identity.desk = 0 ∧
      s.suu.identity.role = .console := by decide +kernel

/-- The console's own OPEN, CLOSE, VERDICT, REVEAL and dirty page, in their slots. -/
def ownFrame (c : Content) (phase : Phase) (block : OpenBlock) : State :=
  let s := scored [(9, 300)] (inTurn 1 9 phase (inRound 12 block phase 170000 (station .console 0 0)))
  inTail c { s with cnf := { s.cnf with verdictPending := some 1, dirty := [2] } }

/-- What every statement about a console's own frame asks of the state. -/
abbrev OwnMet (p : Place) (c : Content) (s : State) : Prop :=
  (∀ g ∈ (attempted s).toList, Takes p (frameOf s g) s ∧ (frameOf s g).body = payloadOf c ∧ frameOf s g = ⟨0, 12, payloadOf c⟩) ∧
    TablesSound s ∧ QueueSound s ∧ ScoresSound s

theorem test_met_own_console_frames :
    OwnMet .close (.close 170000) (ownFrame (.close 170000) .live buzzRound) ∧
      OwnMet .open_ (.open_ 12 buzzRound) (ownFrame (.open_ 12 buzzRound) .ended buzzRound) ∧
      OwnMet .verdict (.verdict 1 9 .wrong (some 260)) (ownFrame (.verdict 1 9 .wrong (some 260)) .turn buzzRound) ∧
      OwnMet .verdict (.verdict 1 17 .wrong (some 0)) (ownFrame (.verdict 1 17 .wrong (some 0)) .turn buzzRound) :=
  ⟨by decide +kernel, by decide +kernel, by decide +kernel, by decide +kernel⟩
theorem test_met_own_reveal_and_page :
    OwnMet .reveal (.reveal 4) (ownFrame (.reveal 4) .closing (choiceRound true)) ∧
      OwnMet (.tally 2) (.tally 2 (some (300, 0, 0, 0))) (ownFrame (.tally 2 (some (300, 0, 0, 0))) .live buzzRound) :=
  ⟨by decide +kernel, by decide +kernel⟩
/-- A desk's own PASS, CLAIM, CHOICE, PRESENT and HELLO. -/
theorem test_met_own_desk_frames :
    ∀ c ∈ ([.pass 1 4, .claim 10200 4, .choice 30000 0 4, .present 1 4 7 0, .hello 1 4 0] : List Content),
      let s := inTail c (station .team 11 4)
      (∀ g ∈ (attempted s).toList, Takes c.place (frameOf s g) s) ∧ TablesSound s ∧ QueueSound s ∧ ScoresSound s := by
  decide +kernel
/-- The CLAIM, CHOICE and HELLO of a desk. -/
theorem test_met_OwnFrameTaken :
    ∀ c ∈ ([.claim 10200 4, .choice 30000 4 4, .hello 1 4 0] : List Content),
      let s := inTail c (station .team 11 4)
      QueueSound s ∧ s.lcu.tx = .slots ∧ PlainAttempt (sentFrame c 0) s ∧ s.suu.startUp = .joined ∧ s.lif.decode = .tail ∧
        s.lif.cells = cleanCells (sentBits s) ∧ senderAllowed s.suu.identity.desk (payloadOf c) = true := by
  unfold PlainAttempt; decide +kernel
/-- The ROLL of a console. -/
theorem test_met_OwnFrameTaken_roll :
    let s := inTail (.roll 7 20) (station .console 0 0)
    QueueSound s ∧ s.lcu.tx = .slots ∧ PlainAttempt (sentFrame (.roll 7 20) 0) s ∧ s.lif.decode = .tail ∧
      s.lif.cells = cleanCells (sentBits s) ∧ senderAllowed s.suu.identity.desk (payloadOf (.roll 7 20)) = true ∧
      s.suu.identity.role = .console ∧ s.cnf.rollState = .idle := by
  unfold PlainAttempt; decide +kernel

/-! ### The hypotheses met: clocks, inputs, panel, port, console -/

/-- Counts 0 and 16,777,214; the arm's own tick; the close point's own tick; the last count, in a round and out of one. -/
theorem test_met_RoundClockRows :
    (let s := inRound 12 buzzRound .live 16777214 (station .team 11 4)
     s.rck.running = true ∧ s.rck.count < 16777215) ∧
    (let s := inRound 12 buzzRound .reading 150000 (station .team 11 4)
     QueueSound s ∧ s.rng.phase = .reading ∧ s.rng.armTicks ≤ s.rck.count) ∧
    (let s := inRound 12 buzzRound .held 3150000 (station .team 11 4)
     QueueSound s ∧ s.rng.phase = .held ∧ s.rng.closed = false ∧ s.rng.closePoint ≤ s.rck.count) ∧
    (let s := inRound 12 buzzRound .reading 16777215 (station .team 11 4)
     QueueSound s ∧ s.rck.running = true ∧ s.rck.count = 16777215 ∧ s.rng.phase ≠ .unsynced ∧ s.rng.phase ≠ .ended) ∧
    (let s := inRound 12 buzzRound .ended 16777215 (station .team 11 4)
     QueueSound s ∧ s.rck.running = true ∧ s.rck.count = 16777215 ∧ s.rng.phase = .ended) :=
  ⟨by decide, by decide +kernel, by decide +kernel, by decide +kernel, by decide +kernel⟩

/-- Turn 2 of team 9 with this much of the answer clock left. -/
def answering (steps : Nat) (s : State) : State :=
  let u := inTurn 2 9 .turn (inRound 12 buzzRound .turn 790000 s)
  { u with rng := { u.rng with answerClock := steps } }

theorem test_met_AnswerClockRows :
    (let s := answering 1 (station .team 11 4)
     s.rng.answerRunning = true ∧ 0 < s.rng.answerClock) ∧
    (let s := answering 0 (station .team 11 4)
     s.rng.phase = .turn ∧ s.rng.answerRunning = true ∧ s.rng.answerClock = 0 ∧ s.suu.identity.role ≠ .console) ∧
    (let s := answering 0 (station .console 0 0)
     s.rng.phase = .turn ∧ s.rng.answerRunning = true ∧ s.rng.answerClock = 0 ∧ s.suu.identity.role = .console ∧
       s.suu.startUp = .joined ∧ s.rng.answering = some 9 ∧ s.lcu.tx ≠ .halted ∧ s.lcu.tx ≠ .muted ∧
       frameAt .verdict s.lcu.queue = none) ∧
    (answering 0 haltedStation).lcu.tx = .halted := by decide
/-- Every filter state with its level; the hold of a desk whose team answers. -/
theorem test_met_InputsAndHold :
    (∀ x ∈ ([{ low := false, filter := .released, timer := .off }, { low := false, filter := .releaseFilter none, timer := .running 1000 },
        { low := true, filter := .pressFilter 5, timer := .running 1000 }, { low := true, filter := .pressed (some 5), timer := .off }] :
        List Input),
      (setInput .keyD x (station .team 11 4)).icu.input .keyD = x ∧ (setInput .keyD x (station .team 11 4)).suu.startUp = .joined) ∧
    (let s := answering 300 (station .team 11 9)
     let u := { s with icu := { s.icu with hold := .running 1200000, record := { s.icu.record with passTurn := some 2 } } }
     u.icu.hold.on = true ∧ u.rng.phase = .turn ∧ u.rng.answering = some u.suu.identity.team ∧
       u.icu.record.passTurn = some u.rng.turn ∧ u.suu.identity.role = .team ∧ u.suu.startUp = .joined ∧
       u.lcu.tx ≠ .halted ∧ u.lcu.tx ≠ .muted ∧ frameAt .pass u.lcu.queue = none) := by decide
/-- Presses one tick before the arm, at the arm, in the last tick before the close point, and at the close point. -/
theorem test_met_BuzzPressAccepted :
    ∀ time ∈ [149999, 150000, 3149999, 3150000],
      let s := pressing .buzz time (inRound 12 buzzRound .live 3150000 (station .team 11 4))
      (s.icu.input .buzz).filter = .pressFilter time ∧ (s.icu.input .buzz).timer.on = true ∧ s.suu.identity.role = .team ∧
        s.suu.startUp = .joined ∧ s.suu.muted = false ∧ s.rng.format = .buzz ∧ s.rng.phase = .live ∧
        (time < s.rng.armTicks ↔ time = 149999) ∧ (time < s.rng.closePoint ↔ time ≠ 3150000) ∧
        s.icu.record.jumpLockEnd ≤ time ∧ s.icu.record.ownClaim = .none ∧
        (∀ e ∈ s.clt.entries, e.team ≠ s.suu.identity.team) ∧ s.lcu.tx ≠ .halted ∧ s.lcu.tx ≠ .muted ∧
        frameAt .claim s.lcu.queue = none ∧
        frameAt .claim (sending .waiting [waitingFrame (.claim 9 4) 0] s).lcu.queue ≠ none ∧
        (sending .halted [] s).lcu.tx = .halted := by decide
/-- The same of key D in both choice modes; a key in a BUZZ round; a press at a WALL station. -/
theorem test_met_KeyPressAccepted :
    (∀ change ∈ [false, true], ∀ time ∈ [199999, 200000, 1199999, 1200000],
      let s := pressing .keyD time (inRound 15 (choiceRound change) .live 1200000 (station .team 14 3))
      (s.icu.input .keyD).filter = .pressFilter time ∧ (s.icu.input .keyD).timer.on = true ∧ s.suu.identity.role = .team ∧
        s.suu.startUp = .joined ∧ s.suu.muted = false ∧ s.rng.format = .choice ∧ s.rng.phase = .live ∧
        keyNumber .keyD = some 4 ∧ (time < s.rng.armTicks ↔ time = 199999) ∧ (time < s.rng.closePoint ↔ time ≠ 1200000) ∧
        s.icu.record.jumpLockEnd ≤ time ∧ s.icu.record.lastKey = 0 ∧ s.icu.record.pendingKey = 0 ∧
        frameAt .choice s.lcu.queue = none ∧ s.lcu.tx ≠ .halted ∧ s.lcu.tx ≠ .muted ∧
        (∀ w ∈ [false, true],
          let f := { sentFrame (.choice 30000 2 3) 1 with withdrawn := w }
          frameAt .choice (sending .sending [f] s).lcu.queue = some f) ∧
        (sending .halted [] s).lcu.tx = .halted) ∧
    (let s := pressing .keyA 5 (inRound 12 buzzRound .live 170000 (station .team 11 4))
     (s.icu.input .keyA).filter = .pressFilter 5 ∧ s.rng.format = .buzz) ∧
    (let s := pressing .buzz 5 (station .wall 60 0)
     (s.icu.input .buzz).filter = .pressFilter 5 ∧ (s.icu.input .buzz).timer.on = true ∧ s.suu.identity.role ≠ .team) := by
  decide
/-- Each condition of the panel's tables: the two start-up states, the three roles, a desk's phases of the round. -/
theorem test_met_PanelTables :
    State.reset.suu.startUp = .loading ∧ (after .loadingReadEnd State.reset).suu.startUp = .configFault ∧
      (∀ phase ∈ [Phase.unsynced, .reading, .live, .turn, .held, .closing, .ended],
        let s := inRound 12 buzzRound phase 170000 (station .console 0 0)
        s.suu.startUp = .joined ∧ s.suu.identity.role = .console ∧ s.rng.phase = phase) ∧
      (station .wall 60 0).suu.identity.role = .wall ∧
      (busyDesk.suu.identity.role = .team ∧ busyDesk.rng.format = .buzz ∧ ListOrdered busyDesk.clt.entries) ∧
      ((choosing true).suu.identity.role = .team ∧ (choosing true).rng.format = .choice) ∧
      (let s := inRound 15 (choiceRound true) .reading 200000 (station .team 14 3)
       ∀ lock ∈ [200000, 200001],
         let u := { s with icu := { s.icu with record := { s.icu.record with jumped := true, jumpLockEnd := lock } } }
         u.rng.phase = .reading ∧ u.icu.record.jumped = true ∧ (u.rck.count < lock ↔ lock = 200001)) ∧
      haltedStation.lcu.tx = .halted ∧ (recovering []).lcu.tx = .recovering ∧ (recovering []).pnl.flash.on = false := by
  decide +kernel
theorem test_met_PanelAndRollTimers :
    let s := station .console 0 0
    let u := { s with
      icu := { s.icu with record := { s.icu.record with jumped := true } }
      pnl := { s.pnl with flash := .running 2000000 }
      cnf := { s.cnf with rollState := .polling, currentRoll := some 7, window := some 20, windowTimer := .running 200000 } }
    u.icu.record.jumped = true ∧ u.icu.record.jumpLockEnd ≤ u.rck.count ∧ u.pnl.flash.on = true ∧ u.pnl.update.on = true ∧
      u.cnf.rollState = .polling ∧ u.cnf.windowTimer.on = true ∧ u.cnf.currentRoll = some 7 ∧ u.cnf.window = some 20 := by decide
theorem test_met_Transfers :
    State.reset.cmp.transfer = .waitSelect ∧ (commanded State.reset).cmp.transfer = .shifting ∧
      isUnknown 0x0F [] = true ∧ isUnknown 0x29 [] = true ∧ isUnknown 0x20 (List.replicate 18 0) = true := by decide
theorem test_met_StatusRead :
    (commanded busyDesk).cmp.transfer = .shifting ∧ QueueSound (commanded busyDesk) ∧ BoundsSound (commanded busyDesk) ∧
      frameAt .claim busyDesk.lcu.queue = some (waitingFrame (.claim 10200 4) 3) ∧
      frameAt .close busyDesk.lcu.queue = none := by decide +kernel
theorem test_met_SnapshotReads :
    (commanded busyDesk).cmp.transfer = .shifting ∧ ScoresSound (commanded busyDesk) ∧ ClaimsSound (commanded busyDesk) ∧
      (∀ e ∈ (commanded busyDesk).clt.entries, e.level ≤ 3) ∧ TablesSound (commanded busyDesk) := by decide +kernel
theorem test_met_EventsAndFaultLog : (commanded busyDesk).cmp.transfer = .shifting := by decide +kernel

/-- A working console, in a transfer, in this phase of this round. -/
def host (block : OpenBlock) (phase : Phase) : State := commanded (inRound 12 block phase 170000 (station .console 0 0))

/-- Phases, places, transmitters and outcomes at which the commands are accepted and refused. -/
theorem test_met_ConsoleHandsOver :
    (∀ phase ∈ [Phase.unsynced, .live, .closing, .ended],
      (host buzzRound phase).cmp.transfer = .shifting ∧ (host buzzRound phase).suu.identity.role = .console ∧
        (host buzzRound phase).suu.startUp = .joined ∧ (host buzzRound phase).rng.phase = phase) ∧
    ((host buzzRound .ended).lcu.tx = .idle ∧ frameAt .open_ (host buzzRound .ended).lcu.queue = none ∧
      frameAt .close (host buzzRound .live).lcu.queue = none ∧ (host buzzRound .ended).cnf.rollState = .idle ∧
      (4 : Byte).toNat ≤ 4 ∧ 4 < (5 : Byte).toNat) ∧
    (let s := commanded (sending .waiting [waitingFrame (.roll 7 20) 0] (station .console 0 0))
     frameAt .roll s.lcu.queue ≠ none ∧ s.lcu.tx = .waiting) ∧
    (let s := commanded (answering 300 (station .console 0 0))
     s.rng.phase = .turn ∧ s.cnf.verdictPending = none ∧ s.rng.answering = some 9 ∧ outcomeOfCode 2 = some .wrong ∧
       s.rng.turn = 2 ∧ min 16 (2 : Byte).toNat = s.rng.turn ∧ min 16 (3 : Byte).toNat ≠ s.rng.turn ∧
       frameAt .verdict s.lcu.queue = none) ∧
    (commanded haltedStation).lcu.tx = .halted := by decide
theorem test_met_ConsoleScores :
    (commanded busyDesk).cmp.transfer = .shifting ∧ ScoresSound (commanded busyDesk) ∧
      (commanded busyDesk).suu.identity.role ≠ .console ∧
      (let s := commanded (scored [(1, 9999), (16, -9999)] (station .console 0 0))
       s.cmp.transfer = .shifting ∧ ScoresSound s ∧ s.suu.identity.role = .console ∧ s.suu.startUp = .joined ∧
         s.lcu.tx ≠ .halted ∧ frameAt (.tally 3) s.lcu.queue = none ∧ (1 ≤ (16 : Byte).toNat ∧ (16 : Byte).toNat ≤ 16)) ∧
      (let s := commanded (sending .sending [waitingFrame (.tally 0 none) 0, sentFrame (.tally 3 none) 0] (station .console 0 0))
       (∀ x ∈ (frameAt (.tally 3) s.lcu.queue).toList, x.inAttempt = true) ∧ s.lcu.tx = .sending) ∧
      (let s := commanded (idleLine (sending .waiting [waitingFrame (.tally 2 none) 0] (station .console 0 0)))
       s.cmp.transfer = .shifting ∧ ScoresSound s ∧ s.lif.idleSeen = true ∧ s.suu.startUp = .joined) :=
  ⟨by decide +kernel, by decide +kernel, by decide +kernel, by decide +kernel, by decide +kernel, by decide +kernel⟩
/-- R40, R170, R174: on an idle line the first page handed starts its attempt, a waiting page 2 waits on, and the
later pages wait with it. -/
theorem test_send_tally_on_idle_line :
    let s := commanded (idleLine (sending .waiting [waitingFrame (.tally 2 none) 0] (station .console 0 0)))
    let t := after .sendTally s
    t.cmp.heldReply.drop 5 = [0, 0, 1, 0] ∧ t.lcu.tx = .contending ∧
      t.lcu.queue.map (fun f => (f.place, f.inAttempt)) =
        [(.tally 0, true), (.tally 1, false), (.tally 2, false), (.tally 3, false)] := by decide +kernel

end Sys2Proof.Tests
end

namespace Sys2Proof.Machine

open Sys2Proof.Safety

/-- A queue put in place of another, at the line controller. -/
@[simp] theorem setQueue_lcu (q : List QFrame) (s : State) : (setQueue q s).lcu = { s.lcu with queue := q } := rfl

/-! ### Hand-overs under a busy transmitter (R36, R40) -/

/-- In an attempt state the transmitter is neither IDLE nor WAITING nor shut (R41). -/
theorem attemptState_busy {x : TxState} (h : attemptState x = true) : x ≠ .idle ∧ x ≠ .waiting ∧ x.shut = false := by
  cases x <;> simp_all [attemptState, TxState.shut]

/-- A queue from which a place's frame has been taken has none there. -/
@[simp] theorem frameAt_removeAt (p : Place) (q : List QFrame) : frameAt p (removeAt p q) = none := by
  simp [frameAt, removeAt]

/-- A frame handed over while an attempt is in progress only takes its place (R36, R40). -/
theorem handOver_busy (c : Content) (h : Hander) (s : State) (htx : attemptState s.lcu.tx = true)
    (hw : s.suu.startUp.atWork = true) (hr : s.suu.identity.role.hasPlace c.place = true)
    (hn : frameAt c.place s.lcu.queue = none) :
    handAnswer c s = .queued ∧ handOver c h s = setQueue (insertFrame (fresh c h) s.lcu.queue) s := by
  obtain ⟨h1, h2, h3⟩ := attemptState_busy htx
  have ha : handAnswer c s = .queued := by simp [handAnswer, h3, hw, hr, hn]
  refine ⟨ha, ?_⟩
  unfold handOver
  rw [ha]
  simp [startOrWait, setQueue, h1, h2, freshFrame, fresh]

/-! ### The end of an attempt (R37 to R43) -/

/-- Is the frame dropped by this end of its attempt, its fourth to be counted (R42, R43)? -/
def dropsAt (e : AttemptEnd) (f : QFrame) : Bool := !f.withdrawn && f.pending.isNone && e.counted && f.attempts == 3

/-- Does the frame leave the queue by this end of its attempt (R37, R39, R42, R43)? -/
def goesAt (e : AttemptEnd) (f : QFrame) : Bool :=
  if e = .taken then f.withdrawn || f.pending.isNone else f.withdrawn || dropsAt e f

/-- What is handed anew for a frame that has left: a dirty page, the TIMEOUT of a turn still held (R166, R173). -/
def againAt (e : AttemptEnd) (f : QFrame) (s : State) : Option Content :=
  match f.place with
  | .tally p => if s.cnf.dirty.contains p.val then some (.tally p none) else none
  | .verdict =>
    if dropsAt e f && markerCurrent s && s.cnf.verdictKind == .automatic && s.rng.phase == .held then
      s.rng.answering.map fun team => .verdict (byteOf s.rng.turn) (byteOf team) .timeout none
    else none
  | _ => none

/-- The queue without the frame in attempt, with what is handed anew. -/
def queueLeft (again : Option Content) (q : List QFrame) : List QFrame :=
  let rest := q.filter fun g => !g.inAttempt
  match again with
  | none => rest
  | some c => insertFrame (fresh c .cnf) rest

/-- How the frame leaves by this end of its attempt. -/
def fateAt (e : AttemptEnd) (f : QFrame) : Fate :=
  if e = .taken then .taken else if f.withdrawn then .withdrawn else .droppedAfterFour

/-- What stands in the place of a frame that does not leave (R37, R42). -/
def frameLeft (e : AttemptEnd) (f : QFrame) : QFrame :=
  match f.pending with
  | some c =>
    if e = .taken then fresh c f.hander
    else { f with content := c, pending := none, attempts := 0, round := none, inAttempt := false }
  | none => { f with inAttempt := false, attempts := f.attempts + if e.counted then 1 else 0 }

/-- The queue once the attempt of f has ended so. -/
def queueAt (e : AttemptEnd) (f : QFrame) (s : State) : List QFrame :=
  if goesAt e f then queueLeft (againAt e f s) s.lcu.queue
  else s.lcu.queue.map fun x => if x.inAttempt then frameLeft e f else x

/-- The press record once the attempt of f has ended so (R65, R71). -/
def recordAt (e : AttemptEnd) (f : QFrame) (r : PressRecord) : PressRecord :=
  { r with
    ownClaim :=
      if f.place = .claim ∧ dropsAt e f = true then .dropped
      else if f.place = .claim ∧ e ≠ .taken ∧ f.withdrawn = true then .none
      else r.ownClaim
    claimStamp := if f.place = .claim ∧ (dropsAt e f = true ∨ e ≠ .taken ∧ f.withdrawn = true) then none else r.claimStamp
    pendingKey := if f.place = .choice ∧ (dropsAt e f = true ∨ e ≠ .taken ∧ f.withdrawn = true) then 0 else r.pendingKey }

/-- The console function once the attempt of f has ended so (R165, R173; log 41). -/
def cnfAt (e : AttemptEnd) (f : QFrame) (s : State) : Cnf :=
  { s.cnf with
    verdictPending :=
      if f.place = .verdict ∧ dropsAt e f = true ∧ againAt e f s = none then none else s.cnf.verdictPending
    dirty :=
      match f.place with
      | .tally p => s.cnf.dirty.filter (· != p.val)
      | _ => s.cnf.dirty }

/-- The state once the attempt of f has ended so, before the transmitter's own move: every block by its own rule. -/
def attemptEnded (e : AttemptEnd) (f : QFrame) (s : State) : State :=
  { s with
    suu :=
      if f.place = .hello ∧ goesAt e f = true ∧ s.suu.startUp = .joining then
        { s.suu with startUp := .joined, joinWait := .off }
      else s.suu
    lcu := { s.lcu with queue := queueAt e f s }
    icu := { s.icu with record := recordAt e f s.icu.record }
    rng :=
      { s.rng with
        answerRunning := s.rng.answerRunning ||
          (f.place == .verdict && dropsAt e f && markerCurrent s && s.cnf.verdictKind == .host && s.rng.phase == .turn) }
    cnf := cnfAt e f s
    pnl :=
      { s.pnl with
        flash :=
          if dropsAt e f = true ∧ (f.place = .claim ∨ f.place = .choice ∨ f.place = .pass) then .running 2000000
          else s.pnl.flash }
    cmp := { s.cmp with flags := s.cmp.flags ||| raisedIf (dropsAt e f) .txDropped } }

/-- In a sound queue the frame in attempt is sound, has its role's place, and its transmitter is at work in an attempt. -/
theorem attempted_sound (s : State) (f : QFrame) (hq : QueueSound s) (hf : attempted s = some f) :
    f.inAttempt = true ∧ s.suu.identity.role.hasPlace f.place = true ∧ FrameSound f ∧ attemptState s.lcu.tx = true ∧
      s.suu.startUp.atWork = true := by
  have hmem : f ∈ s.lcu.queue := List.mem_of_find?_eq_some hf
  have hfa : f.inAttempt = true := by simpa using List.find?_some hf
  obtain ⟨-, hall, ⟨-, -, hcount⟩, hidle, -⟩ := hq
  have hpos : 0 < inAttemptCount s := List.countP_pos_iff.mpr ⟨f, hmem, hfa⟩
  have hatt : attemptState s.lcu.tx = true := by
    cases ha : attemptState s.lcu.tx with
    | true => rfl
    | false => rw [hcount, ha] at hpos; cases hpos
  refine ⟨hfa, (hall f hmem).1, (hall f hmem).2, hatt, ?_⟩
  by_contra hw
  exact (attemptState_busy hatt).1 (hidle (by simpa using hw))

/-- A frame whose page has been asked for again while it was in attempt leaves, and the page takes its place anew (R173). -/
theorem requestPage_again (p : Fin 4) (s : State) (htx : attemptState s.lcu.tx = true) (hw : s.suu.startUp.atWork = true)
    (hr : s.suu.identity.role.hasPlace (.tally p) = true) (hn : frameAt (.tally p) s.lcu.queue = none) :
    requestPage p (clearDirty p.val s) =
      setQueue (insertFrame (fresh (.tally p none) .cnf) s.lcu.queue) (clearDirty p.val s) := by
  obtain ⟨ha, hh⟩ := handOver_busy (.tally p none) .cnf (clearDirty p.val s) (by simpa using htx) (by simpa using hw) hr
    (by simpa [Content.place] using hn)
  unfold requestPage pageOutcome
  rw [ha]
  simpa using hh

/-- The TIMEOUT of a turn still held takes the place of the dropped VERDICT (R166). -/
theorem handTimeout_again (team : Nat) (s : State) (htx : attemptState s.lcu.tx = true) (hw : s.suu.startUp.atWork = true)
    (hr : s.suu.identity.role.hasPlace .verdict = true) (hn : frameAt .verdict s.lcu.queue = none)
    (hteam : s.rng.answering = some team) (hm : s.cnf.verdictPending = some s.rng.turn) (hk : s.cnf.verdictKind = .automatic) :
    handTimeout (clearMarker s) =
      setQueue (insertFrame (fresh (.verdict (byteOf s.rng.turn) (byteOf team) .timeout none) .cnf) s.lcu.queue) s := by
  obtain ⟨ha, hh⟩ := handOver_busy (.verdict (byteOf s.rng.turn) (byteOf team) .timeout none) .cnf (clearMarker s)
    (by simpa using htx) (by simpa using hw) hr (by simpa [Content.place] using hn)
  unfold handTimeout
  simp only [clearMarker_rng, hteam]
  rw [ha]
  simp only [hh]
  simp [setQueue, clearMarker, State.withCnf, State.withLcu, ← hm, ← hk]

end Sys2Proof.Machine

namespace Sys2Proof.Machine

open Sys2Proof.Safety

/-- A frame is dropped by the fourth counted end (R43). -/
theorem dropsAt_iff (e : AttemptEnd) (f : QFrame) (ha : f.attempts < Config.maxAttempts) (hw : f.withdrawn = false)
    (hp : f.pending = none) : dropsAt e f = true ↔ (e.counted = true ∧ Config.maxAttempts ≤ countAfter e f) := by
  simp only [Config.maxAttempts] at *
  cases hc : e.counted
  · simp [dropsAt, hc]
  · simp [dropsAt, hc, hw, hp, countAfter]; omega

/-- No taken frame is dropped. -/
theorem dropsAt_taken (f : QFrame) : dropsAt .taken f = false := by simp [dropsAt, AttemptEnd.counted]

/-- A frame marked for withdrawal is not dropped (R39). -/
theorem dropsAt_withdrawn (e : AttemptEnd) (f : QFrame) (h : f.withdrawn = true) : dropsAt e f = false := by
  simp [dropsAt, h]

/-- A frame that goes leaves by its fate, TX_DROPPED raised for a dropped one (R37, R39, R43). -/
theorem resolveAttempt_goes (e : AttemptEnd) (f : QFrame) (s : State) (ha : f.attempts < Config.maxAttempts)
    (hg : goesAt e f = true) :
    resolveAttempt e f s = leave (fateAt e f) f (raiseIf (dropsAt e f) .txDropped s) := by
  unfold resolveAttempt
  by_cases he : e = .taken
  · subst he
    cases hp : f.pending <;> simp_all [goesAt, fateAt, dropsAt_taken, raiseIf]
  · cases hw : f.withdrawn
    · have hd : dropsAt e f = true := by simpa [goesAt, he, hw] using hg
      have hp : f.pending = none := by simp [dropsAt] at hd; exact hd.1.1.2
      simp [he, hp, (dropsAt_iff e f ha hw hp).mp hd, hd, fateAt, hw, raiseIf]
    · simp [he, fateAt, hw, dropsAt_withdrawn, raiseIf]

/-- A frame that stays is changed in its place; a page's dirty mark goes (R37, R42, R173). -/
theorem resolveAttempt_stays (e : AttemptEnd) (f : QFrame) (s : State) (hq : QueueSound s) (hf : attempted s = some f)
    (hg : goesAt e f = false) :
    resolveAttempt e f s =
      tellPage f false (setQueue (s.lcu.queue.map fun x => if x.inAttempt then frameLeft e f else x) s) := by
  obtain ⟨hfa, -, ⟨hc, hn, hpc, -⟩, -, -⟩ := attempted_sound s f hq hf
  have hmod : ∀ g : QFrame → QFrame, g f = frameLeft e f →
      modifyAt f.place g s.lcu.queue = s.lcu.queue.map fun x => if x.inAttempt then frameLeft e f else x := by
    intro g hgf
    rw [modifyAt_attempted g s f hq hf]
    refine List.map_congr_left fun x hx => ?_
    split
    · rename_i hxa
      rw [find_attempt_unique _ f x (queueSound_atMostOne s hq) hf hx hxa, hgf]
    · rfl
  unfold resolveAttempt
  cases hp : f.pending with
  | some c =>
    have hpl : f.place = .choice := (hpc c (by simp [hp])).2
    have htell : ∀ x, tellPage f false x = x := by intro x; simp [tellPage, hpl]
    by_cases he : e = .taken
    · have hw : f.withdrawn = false := by simpa [goesAt, he, hp] using hg
      simp only [he, hw, if_true, Bool.false_eq_true, if_false]
      rw [← he, hmod _ (by simp [frameLeft, hp, he, freshFrame, fresh]), htell]
    · have hw : f.withdrawn = false := by
        cases h : f.withdrawn <;> simp_all [goesAt]
      simp only [he, hw, Bool.false_eq_true, if_false]
      rw [hmod _ (by simp [frameLeft, hp, he]), htell]
  | none =>
    have he : e ≠ .taken := by rintro rfl; simp [goesAt, hp] at hg
    have hw : f.withdrawn = false := by cases h : f.withdrawn <;> simp_all [goesAt]
    have hd : ¬(e.counted = true ∧ Config.maxAttempts ≤ countAfter e f) := by
      rw [← dropsAt_iff e f hn hw hp]
      simpa [goesAt, he, hw] using hg
    simp only [he, hw, Bool.false_eq_true, if_false, if_neg hd]
    rw [hmod _ (by simp only [frameLeft, hp, countAfter]; cases e.counted <;> rfl)]

/-- The dirty mark of a page that is not marked is none. -/
theorem clearDirty_absent (page : Nat) (s : State) (h : s.cnf.dirty.contains page = false) : clearDirty page s = s := by
  have hf : s.cnf.dirty.filter (· != page) = s.cnf.dirty := by
    rw [List.filter_eq_self]
    intro x hx
    simp only [bne_iff_ne]
    rintro rfl
    simp at h
    exact h hx
  unfold clearDirty
  rw [hf]
  rfl

/-- At the end of its attempt a page that stays has its dirty mark cleared (R173). -/
theorem pageAttemptEnded_stays (p : Fin 4) (s : State) : pageAttemptEnded p false s = clearDirty p.val s := by
  unfold pageAttemptEnded
  cases h : s.cnf.dirty.contains p.val
  · simp [clearDirty_absent _ _ h]
  · simp

/-- What becomes of a frame that stays (R37, R42, R173). -/
theorem attemptEnded_stays (e : AttemptEnd) (f : QFrame) (s : State) (hg : goesAt e f = false) :
    tellPage f false (setQueue (s.lcu.queue.map fun x => if x.inAttempt then frameLeft e f else x) s) =
      attemptEnded e f s := by
  have hd : dropsAt e f = false := by
    by_cases he : e = .taken
    · rw [he]; exact dropsAt_taken f
    · cases h : dropsAt e f <;> simp_all [goesAt]
  have hw : e ≠ .taken → f.withdrawn = false := by
    intro he; cases h : f.withdrawn <;> simp_all [goesAt]
  have hr : recordAt e f s.icu.record = s.icu.record := by
    simp only [recordAt, hd]
    by_cases he : e = .taken
    · simp [he]
    · simp [hw he]
  unfold attemptEnded cnfAt queueAt tellPage
  simp only [hr, hg, hd]
  cases f.place <;>
    simp [setQueue, State.withLcu, State.withCnf, raisedIf, pageAttemptEnded_stays, clearDirty]

end Sys2Proof.Machine

namespace Sys2Proof.Machine

open Sys2Proof.Safety

/-- How a frame that goes has left: taken, marked for withdrawal, or dropped (R37, R39, R43). -/
theorem fateAt_cases (e : AttemptEnd) (f : QFrame) (hg : goesAt e f = true) :
    (e = .taken ∧ fateAt e f = .taken ∧ dropsAt e f = false) ∨
      (e ≠ .taken ∧ f.withdrawn = true ∧ fateAt e f = .withdrawn ∧ dropsAt e f = false) ∨
      (e ≠ .taken ∧ f.withdrawn = false ∧ fateAt e f = .droppedAfterFour ∧ dropsAt e f = true) := by
  by_cases he : e = .taken
  · exact .inl ⟨he, by simp [fateAt, he], by rw [he]; exact dropsAt_taken f⟩
  · cases hw : f.withdrawn
    · exact .inr (.inr ⟨he, rfl, by simp [fateAt, he, hw], by simpa [goesAt, he, hw] using hg⟩)
    · exact .inr (.inl ⟨he, rfl, by simp [fateAt, he, hw], dropsAt_withdrawn e f hw⟩)

/-- A page that has left: its dirty mark goes, and a marked page is asked for again (R173). -/
theorem pageAttemptEnded_left (p : Fin 4) (s : State) (htx : attemptState s.lcu.tx = true)
    (hw : s.suu.startUp.atWork = true) (hr : s.suu.identity.role.hasPlace (.tally p) = true)
    (hn : frameAt (.tally p) s.lcu.queue = none) :
    pageAttemptEnded p true s =
      if s.cnf.dirty.contains p.val then
        setQueue (insertFrame (fresh (.tally p none) .cnf) s.lcu.queue) (clearDirty p.val s)
      else clearDirty p.val s := by
  unfold pageAttemptEnded
  cases h : s.cnf.dirty.contains p.val
  · simp [clearDirty_absent _ _ h]
  · simp [requestPage_again p s htx hw hr hn]

/-- A VERDICT dropped after four attempts: the marker goes, a HOST verdict's clock runs again in TURN, an AUTOMATIC one in HELD
is handed anew (R86, R165, R166). -/
theorem verdictDropped_left (s : State) (htx : attemptState s.lcu.tx = true) (hw : s.suu.startUp.atWork = true)
    (hr : s.suu.identity.role.hasPlace .verdict = true) (hn : frameAt .verdict s.lcu.queue = none) :
    verdictDropped false s =
      if s.cnf.verdictKind = .host then
        (clearMarker s).withRng
          { s.rng with answerRunning := s.rng.answerRunning || (markerCurrent s && s.rng.phase == .turn) }
      else
        match s.rng.answering, markerCurrent s && s.rng.phase == .held with
        | some team, true =>
          setQueue (insertFrame (fresh (.verdict (byteOf s.rng.turn) (byteOf team) .timeout none) .cnf) s.lcu.queue) s
        | _, _ => clearMarker s := by
  unfold verdictDropped
  cases hk : s.cnf.verdictKind
  · by_cases hc : markerCurrent s = true ∧ s.rng.phase = .turn
    · simp [hc]
    · have : (markerCurrent s && s.rng.phase == .turn) = false := by simpa using hc
      simp only [if_neg hc, this]
      simp [clearMarker, State.withCnf, State.withRng]
  · by_cases hc : markerCurrent s = true ∧ s.rng.phase = .held
    · obtain ⟨hm, hp⟩ := hc
      have hm' := hm
      simp only [markerCurrent, Bool.and_eq_true, beq_iff_eq, Option.isSome_iff_exists] at hm'
      obtain ⟨hv, team, ha⟩ := hm'
      simp [hm, hp, ha, handTimeout_again team s htx hw hr hn ha hv hk]
    · have : (markerCurrent s && s.rng.phase == .held) = false := by simpa using hc
      dsimp only
      rw [if_neg fun h => hc ⟨h.1, h.2.1⟩, this]
      cases s.rng.answering <;> simp

/-- A page that goes leaves its dirty mark, and is asked for again if it was marked (R173). -/
theorem leave_page (e : AttemptEnd) (f : QFrame) (s : State) (q : List QFrame) (p : Fin 4) (hpl : f.place = .tally p)
    (hg : goesAt e f = true) (htx : attemptState s.lcu.tx = true) (hwork : s.suu.startUp.atWork = true)
    (hr : s.suu.identity.role.hasPlace (.tally p) = true) (hn : frameAt (.tally p) q = none) :
    tellPage f true (told (fateAt e f) f (setQueue q s)) =
      if s.cnf.dirty.contains p.val then
        setQueue (insertFrame (fresh (.tally p none) .cnf) q) (clearDirty p.val s)
      else setQueue q (clearDirty p.val s) := by
  have htold : told (fateAt e f) f (setQueue q s) = setQueue q s := by
    rcases fateAt_cases e f hg with ⟨-, h, -⟩ | ⟨-, -, h, -⟩ | ⟨-, -, h, -⟩ <;> simp [told, hpl, h]
  rw [htold]
  unfold tellPage
  rw [hpl]
  dsimp only
  rw [pageAttemptEnded_left p (setQueue q s) htx hwork hr hn]
  rfl

/-- The state after a page has gone. -/
theorem attemptEnded_page (e : AttemptEnd) (f : QFrame) (s : State) (p : Fin 4) (hpl : f.place = .tally p)
    (hg : goesAt e f = true) (htx : attemptState s.lcu.tx = true) (hwork : s.suu.startUp.atWork = true)
    (hr : s.suu.identity.role.hasPlace (.tally p) = true)
    (hn : frameAt (.tally p) (s.lcu.queue.filter fun g => !g.inAttempt) = none) :
    tellPage f true (told (fateAt e f) f (setQueue (s.lcu.queue.filter fun g => !g.inAttempt)
      (raiseIf (dropsAt e f) .txDropped s))) = attemptEnded e f s := by
  rw [leave_page e f (raiseIf (dropsAt e f) .txDropped s) _ p hpl hg (by simpa using htx) (by simpa using hwork)
    (by simpa using hr) hn]
  have hv : (Place.tally p == Place.verdict) = false := rfl
  unfold attemptEnded cnfAt queueAt recordAt againAt
  cases hd : dropsAt e f <;> cases hc : s.cnf.dirty.contains p.val <;>
    simp [hpl, hg, hv, hc, setQueue, clearDirty, raiseIf, raise, raisedIf, queueLeft, State.withLcu, State.withCnf,
      State.withCmp, -List.contains_eq_mem]

/-- The state after a dropped VERDICT (R165, R166). -/
theorem attemptEnded_verdict (e : AttemptEnd) (f : QFrame) (s : State) (hpl : f.place = .verdict) (hg : goesAt e f = true)
    (hd : dropsAt e f = true) (htx : attemptState s.lcu.tx = true) (hwork : s.suu.startUp.atWork = true)
    (hr : s.suu.identity.role.hasPlace .verdict = true)
    (hn : frameAt .verdict (s.lcu.queue.filter fun g => !g.inAttempt) = none) :
    verdictDropped false (setQueue (s.lcu.queue.filter fun g => !g.inAttempt) (raise .txDropped s)) =
      attemptEnded e f s := by
  rw [verdictDropped_left (setQueue (s.lcu.queue.filter fun g => !g.inAttempt) (raise .txDropped s)) htx hwork hr hn]
  have hm : markerCurrent (setQueue (s.lcu.queue.filter fun g => !g.inAttempt) (raise .txDropped s)) = markerCurrent s := rfl
  unfold attemptEnded cnfAt queueAt recordAt againAt
  rw [hm]
  cases hk : s.cnf.verdictKind
  · simp [hpl, hd, hg, hk, setQueue, clearMarker, raise, raisedIf, queueLeft, State.withLcu, State.withCnf, State.withCmp,
      State.withRng]
  · have hhost : (VerdictKind.automatic == VerdictKind.host) = false := rfl
    cases hb : markerCurrent s && s.rng.phase == .held
    · cases h : s.rng.answering <;>
        simp [hpl, hd, hg, hk, hb, h, hhost, setQueue, clearMarker, raise, raisedIf, queueLeft, State.withLcu,
          State.withCnf, State.withCmp] <;> simp [← h]
    · cases h : s.rng.answering <;>
        simp [hpl, hd, hg, hk, hb, h, hhost, setQueue, clearMarker, raise, raisedIf, queueLeft, State.withLcu,
          State.withCnf, State.withCmp] <;> simp [← h, ← hk]

/-- What becomes of a frame that goes (R11, R39, R43, R65, R71, R165, R166, R173). -/
theorem attemptEnded_goes (e : AttemptEnd) (f : QFrame) (s : State) (hq : QueueSound s) (hf : attempted s = some f)
    (hg : goesAt e f = true) :
    leave (fateAt e f) f (raiseIf (dropsAt e f) .txDropped s) = attemptEnded e f s := by
  obtain ⟨-, hplace, -, htx, hwork⟩ := attempted_sound s f hq hf
  have hrest := removeAt_attempted s f hq hf
  have hnone : frameAt f.place (s.lcu.queue.filter fun g => !g.inAttempt) = none := by
    rw [← hrest]; exact frameAt_removeAt _ _
  have hcases := fateAt_cases e f hg
  unfold leave
  rw [raiseIf_lcu, hrest]
  cases hpl : f.place with
  | tally p =>
    rw [hpl] at hplace hnone
    exact attemptEnded_page e f s p hpl hg htx hwork hplace hnone
  | verdict =>
    rw [hpl] at hplace hnone
    rcases hcases with ⟨rfl, hfate, hd⟩ | ⟨he, hw, hfate, hd⟩ | ⟨he, hw, hfate, hd⟩
    · simp [told, tellPage, attemptEnded, cnfAt, queueAt, recordAt, againAt, hpl, hfate, hd, hg, setQueue, raiseIf,
        raisedIf, queueLeft, State.withLcu]
    · simp [told, tellPage, attemptEnded, cnfAt, queueAt, recordAt, againAt, hpl, hfate, hd, hg, he, setQueue, raiseIf,
        raisedIf, queueLeft, State.withLcu]
    · rw [← attemptEnded_verdict e f s hpl hg hd htx hwork hplace hnone]
      simp [told, tellPage, hpl, hfate, hd, raiseIf]
  | hello =>
    have hv : (Place.hello == Place.verdict) = false := rfl
    by_cases hj : s.suu.startUp = .joining <;> cases hd : dropsAt e f <;>
      simp [told, tellPage, attemptEnded, cnfAt, queueAt, recordAt, againAt, hpl, hg, hv, hj, hd, setQueue, raiseIf, raise,
        raisedIf, queueLeft, enterJoined, State.withLcu, State.withSuu, State.withCmp]
  | _ =>
    have hv : (f.place == Place.verdict) = false := by rw [hpl]; rfl
    unfold attemptEnded cnfAt queueAt recordAt againAt
    rw [hv]
    rcases hcases with ⟨rfl, hfate, hd⟩ | ⟨he, hw, hfate, hd⟩ | ⟨he, hw, hfate, hd⟩
    · simp [told, tellPage, hpl, hfate, hd, hg, setQueue, raiseIf, raisedIf, queueLeft, State.withLcu]
    · simp [told, tellPage, hpl, hfate, hd, hg, he, hw, setQueue, raiseIf, raisedIf, queueLeft, setRecord,
        State.withLcu, State.withIcu]
    · simp [told, tellPage, hpl, hfate, hd, hg, he, hw, setQueue, raiseIf, raise, raisedIf, queueLeft, claimDropped,
        choiceDropped, reportDrop, setRecord, State.withLcu, State.withIcu, State.withPnl, State.withCmp, Config.flashUs]

end Sys2Proof.Machine

namespace Sys2Proof.Machine

open Sys2Proof.Safety

/-- The end of an attempt, before the transmitter's own move (R37 to R43). -/
theorem resolveAttempt_eq (e : AttemptEnd) (f : QFrame) (s : State) (hq : QueueSound s) (hf : attempted s = some f) :
    resolveAttempt e f s = attemptEnded e f s := by
  obtain ⟨-, -, ⟨-, hn, -⟩, -⟩ := attempted_sound s f hq hf
  cases hg : goesAt e f
  · rw [resolveAttempt_stays e f s hq hf hg, attemptEnded_stays e f s hg]
  · rw [resolveAttempt_goes e f s hn hg, attemptEnded_goes e f s hq hf hg]

theorem resolve_eq (e : AttemptEnd) (f : QFrame) (s : State) (hq : QueueSound s) (hf : attempted s = some f) :
    resolve e s = attemptEnded e f s := by
  unfold resolve
  rw [hf]
  exact resolveAttempt_eq e f s hq hf

/-- The transmitter's own move to IDLE or WAITING (R41, R51). -/
theorem settleTx_lcu (s : State) :
    (settleTx s).lcu =
      { s.lcu with
        tx := if s.lcu.queue = [] then .idle else .waiting
        history := entered [if s.lcu.queue = [] then .idle else .waiting] s.lcu.history } := by
  have hi : (TxState.idle == TxState.recovering) = false := rfl
  have hw : (TxState.waiting == TxState.recovering) = false := rfl
  cases h : s.lcu.queue <;> simp [settleTx, enterTx, entered, h, hi, hw]

/-- The whole end of an attempt other than by a line fault (R37 to R43). -/
theorem endAttempt_eq (e : AttemptEnd) (f : QFrame) (s : State) (hq : QueueSound s) (hf : attempted s = some f) :
    endAttempt e s = settleTx (attemptEnded e f s) := by
  unfold endAttempt
  rw [resolve_eq e f s hq hf]

end Sys2Proof.Machine

namespace Sys2Proof.Machine
open Sys2Proof.Safety

/-- Settles O32: the end of an attempt is `attemptEnded`, block by block, then the transmitter's move. -/
theorem attemptEnds : Obligations.AttemptEnds := by
  intro s e f hq hf
  have hqueue : (settleTx (attemptEnded e f s)).lcu.queue = queueAt e f s := by rw [settleTx_lcu]; rfl
  dsimp only
  rw [endAttempt_eq e f s hq hf, hqueue]
  refine ⟨fun hg => ?_, fun c he hp hw => ?_, fun c he hw hp => ?_, fun he hw hp hd => ?_, ?_, ?_, ?_, ?_, ?_, ?_, ?_, ?_⟩
  · exact if_pos hg
  · subst he
    have hg : goesAt .taken f = false := by simp [goesAt, hp, hw]
    simp [queueAt, hg, frameLeft, hp]
  · have hg : goesAt e f = false := by simp [goesAt, he, dropsAt, hp, hw]
    simp [queueAt, hg, frameLeft, hp, he]
  · have hg : goesAt e f = false := by simp only [goesAt, if_neg he, hw]; exact hd
    simp [queueAt, hg, frameLeft, hp]
  · rw [settleTx_lcu]; rfl
  · rw [settleTx_cmp]; rfl
  · rw [settleTx_pnl]; rfl
  · rw [settleTx_icu]; rfl
  · rw [settleTx_suu]; rfl
  · rw [settleTx_cnf]; rfl
  · rw [settleTx_rng]; rfl
  · simp [attemptEnded]

end Sys2Proof.Machine

namespace Sys2Proof.Machine

open Sys2Proof.Safety

/-! ### Sound queues (R35, R37, R39, R43) -/

/-- Places in class order, never two frames of one, only the role's places, sound frames: `QueueSound` without the
transmitter. -/
def SoundQueue (role : Role) (q : List QFrame) : Prop :=
  (q.map fun f => f.place.index).Pairwise (· < ·) ∧ ∀ f ∈ q, role.hasPlace f.place = true ∧ FrameSound f

/-- Is no frame of the queue in attempt? -/
def Resting (q : List QFrame) : Prop := ∀ f ∈ q, f.inAttempt = false

theorem resting_iff (q : List QFrame) : Resting q ↔ q.countP QFrame.inAttempt = 0 := by
  simp [Resting, List.countP_eq_zero]

theorem SoundQueue.sublist {role : Role} {q r : List QFrame} (h : SoundQueue role q) (hs : r.Sublist q) :
    SoundQueue role r :=
  ⟨h.1.sublist (hs.map _), fun f hf => h.2 f (hs.subset hf)⟩

/-- A change that keeps every frame's place and leaves sound frames keeps a sound queue. -/
theorem SoundQueue.map {role : Role} {q : List QFrame} (h : SoundQueue role q) (g : QFrame → QFrame)
    (hg : ∀ f ∈ q, (g f).place = f.place ∧ FrameSound (g f)) : SoundQueue role (q.map g) := by
  obtain ⟨hs, ha⟩ := h
  refine ⟨?_, fun x hx => ?_⟩
  · rw [List.map_map]
    rwa [List.map_congr_left fun f hf => show ((fun f => f.place.index) ∘ g) f = f.place.index by simp [(hg f hf).1]]
  · obtain ⟨f, hf, rfl⟩ := List.mem_map.mp hx
    exact ⟨by rw [(hg f hf).1]; exact (ha f hf).1, (hg f hf).2⟩

/-- A frame put in its place is the only addition. -/
theorem insertFrame_perm (f : QFrame) (q : List QFrame) : (insertFrame f q).Perm (f :: q) := by
  induction q with
  | nil => exact .refl _
  | cons g gs ih =>
    unfold insertFrame
    split
    · exact .refl _
    · exact (ih.cons g).trans (.swap f g gs)

@[simp] theorem mem_insertFrame (f g : QFrame) (q : List QFrame) : g ∈ insertFrame f q ↔ g = f ∨ g ∈ q := by
  rw [(insertFrame_perm f q).mem_iff, List.mem_cons]

theorem insertFrame_ne_nil (f : QFrame) (q : List QFrame) : insertFrame f q ≠ [] := by
  intro h
  have := (mem_insertFrame f f q).mpr (.inl rfl)
  rw [h] at this
  cases this

/-- Places are told apart by their order (R35). -/
theorem index_injective {p r : Place} (h : p.index = r.index) : p = r := by
  cases p <;> cases r <;> simp [Place.index] at h ⊢ <;> omega

/-- No frame of the queue stands in an empty place. -/
theorem frameAt_none {p : Place} {q : List QFrame} : frameAt p q = none ↔ ∀ f ∈ q, f.place ≠ p := by
  simp [frameAt]

theorem frameAt_some {p : Place} {q : List QFrame} {f : QFrame} (h : frameAt p q = some f) : f ∈ q ∧ f.place = p :=
  ⟨List.mem_of_find?_eq_some h, by simpa using List.find?_some h⟩

/-- A sound frame put in an empty place of the role's keeps a sound queue (R35, R36). -/
theorem SoundQueue.insert {role : Role} {q : List QFrame} (h : SoundQueue role q) (f : QFrame)
    (hn : frameAt f.place q = none) (hr : role.hasPlace f.place = true) (hf : FrameSound f) :
    SoundQueue role (insertFrame f q) := by
  obtain ⟨hs, ha⟩ := h
  refine ⟨?_, fun x hx => ?_⟩
  · rw [frameAt_none] at hn
    clear ha
    induction q with
    | nil => simp [insertFrame]
    | cons g gs ih =>
      simp only [List.map_cons, List.pairwise_cons, List.mem_map] at hs
      obtain ⟨hlt, hs'⟩ := hs
      have hne : g.place.index ≠ f.place.index := fun he => hn g (by simp) (index_injective he)
      unfold insertFrame
      split
      · rename_i hfg
        simp only [List.map_cons, List.pairwise_cons, List.mem_cons, List.mem_map]
        refine ⟨?_, hlt, hs'⟩
        rintro a (rfl | ⟨x, hx, rfl⟩)
        · exact hfg
        · exact hfg.trans (hlt _ ⟨x, hx, rfl⟩)
      · simp only [List.map_cons, List.pairwise_cons, List.mem_map, mem_insertFrame]
        refine ⟨?_, ih (fun x hx => hn x (by simp [hx])) hs'⟩
        rintro a ⟨x, rfl | hx, rfl⟩
        · omega
        · exact hlt _ ⟨x, hx, rfl⟩
  · rcases (mem_insertFrame f x q).mp hx with rfl | hx
    · exact ⟨hr, hf⟩
    · exact ha x hx

theorem Resting.insert {q : List QFrame} (h : Resting q) (f : QFrame) (hf : f.inAttempt = false) :
    Resting (insertFrame f q) := by
  intro x hx
  rcases (mem_insertFrame f x q).mp hx with rfl | hx
  · exact hf
  · exact h x hx

/-- A fresh frame is sound and not in attempt (R36). -/
theorem fresh_sound (c : Content) (h : Hander) : FrameSound (fresh c h) ∧ (fresh c h).inAttempt = false := by
  simp [FrameSound, fresh, Config.maxAttempts]

/-- In a queue at rest no frame is marked and none holds pending content (R37, R39). -/
theorem SoundQueue.rest_filter {role : Role} {q : List QFrame} (h : SoundQueue role q) :
    SoundQueue role (q.filter fun g => !g.inAttempt) ∧ Resting (q.filter fun g => !g.inAttempt) := by
  refine ⟨h.sublist List.filter_sublist, fun f hf => ?_⟩
  simpa using (List.mem_filter.mp hf).2

/-! ### The queue once an attempt has ended (R37 to R43) -/

/-- The frame that stays is sound, and not in attempt. -/
theorem frameLeft_sound (e : AttemptEnd) (f : QFrame) (h : FrameSound f) (hg : goesAt e f = false) :
    (frameLeft e f).place = f.place ∧ FrameSound (frameLeft e f) ∧ (frameLeft e f).inAttempt = false := by
  obtain ⟨hc, hn, hp, -⟩ := h
  have hw : f.withdrawn = false := by
    by_cases he : e = .taken <;> cases h : f.withdrawn <;> simp_all [goesAt]
  unfold frameLeft
  cases hpd : f.pending with
  | some c =>
    obtain ⟨hcp, -⟩ := hp c (by simp [hpd])
    dsimp only
    split
    · exact ⟨hcp, fresh_sound c f.hander⟩
    · simp [FrameSound, hcp, hw, Config.maxAttempts]
  | none =>
    have hlt : f.attempts + (if e.counted then 1 else 0) < Config.maxAttempts := by
      simp only [Config.maxAttempts] at hn ⊢
      cases hcd : e.counted with
      | false => simpa using hn
      | true =>
        have he : e ≠ .taken := by rintro rfl; cases hcd
        have h3 : f.attempts ≠ 3 := by
          intro h3; simp [goesAt, he, dropsAt, hw, hpd, hcd, h3] at hg
        simp; omega
    simp [FrameSound, hc, hw, hlt]

/-- What is handed anew has the place of the frame that has left. -/
theorem againAt_place (e : AttemptEnd) (f : QFrame) (s : State) (c : Content) (h : againAt e f s = some c) :
    c.place = f.place := by
  unfold againAt at h
  split at h
  · rename_i p hp
    split at h
    · cases h; exact hp.symm
    · cases h
  · rename_i hp
    split at h
    · obtain ⟨team, -, rfl⟩ := Option.map_eq_some_iff.mp h; exact hp.symm
    · cases h
  · cases h

/-- Once the attempt has ended the queue is sound and no frame of it is in attempt. -/
theorem queueAt_sound (e : AttemptEnd) (f : QFrame) (s : State) (hq : QueueSound s) (hf : attempted s = some f) :
    SoundQueue s.suu.identity.role (queueAt e f s) ∧ Resting (queueAt e f s) := by
  obtain ⟨hfa, hr, hsound, -⟩ := attempted_sound s f hq hf
  have hs : SoundQueue s.suu.identity.role s.lcu.queue := ⟨hq.1, hq.2.1⟩
  unfold queueAt
  split
  · obtain ⟨hrest, hres⟩ := hs.rest_filter
    unfold queueLeft
    cases hag : againAt e f s with
    | none => exact ⟨hrest, hres⟩
    | some c =>
      have hc := againAt_place e f s c hag
      obtain ⟨h1, h2⟩ := fresh_sound c .cnf
      have hpl : (fresh c .cnf).place = f.place := hc
      refine ⟨hrest.insert _ ?_ (by rw [hpl]; exact hr) h1, hres.insert _ h2⟩
      rw [hpl, ← removeAt_attempted s f hq hf]
      exact frameAt_removeAt _ _
  · rename_i hg
    obtain ⟨h1, h2, h3⟩ := frameLeft_sound e f hsound (by simpa using hg)
    refine ⟨hs.map _ fun x hx => ?_, fun x hx => ?_⟩
    · split
      · rename_i hxa
        rw [find_attempt_unique _ f x (queueSound_atMostOne s hq) hf hx hxa]
        exact ⟨h1, h2⟩
      · exact ⟨rfl, (hs.2 x hx).2⟩
    · obtain ⟨y, -, rfl⟩ := List.mem_map.mp hx
      split
      · exact h3
      · rename_i hy; simpa using hy

end Sys2Proof.Machine

namespace Sys2Proof.Machine

open Sys2Proof.Safety

/-! ### What operations keep -/

/-- The bounds of clock and round context (R55, R57, R73, R76, R91). -/
def RoundBounded (s : State) : Prop :=
  s.rck.count ≤ Config.clockMax ∧ s.rng.turn ≤ Config.maxTurn ∧
    (s.rng.phase = .unsynced ∨ s.rng.phase = .reading → s.rng.turn = 0) ∧
    (s.rng.phase = .live → s.rng.turn < Config.maxTurn) ∧ s.rng.answerClock ≤ 6000 ∧ s.rng.answerTime ≤ 6000 ∧
    s.rng.closePoint ≤ Config.clockMax

/-- What every operation keeps that no reset, LOADING or CLEAR_EVENTS is part of: identity and muted marker, a shut
transmitter, set flags, the lengths of history and fault log, the bounds of the round. -/
structure Kept (s t : State) : Prop where
  identity : t.suu.identity = s.suu.identity
  atWork : t.suu.startUp.atWork = s.suu.startUp.atWork
  muted : t.suu.muted = s.suu.muted
  shut : s.lcu.tx.shut = true → t.lcu.tx = s.lcu.tx
  flags : s.cmp.flags &&& t.cmp.flags = s.cmp.flags
  history : s.lcu.history.length = 4 → t.lcu.history.length = 4
  log : s.lcu.log.length ≤ Config.faultLogSize → t.lcu.log.length ≤ Config.faultLogSize
  round : RoundBounded s → RoundBounded t

theorem flags_trans {a b c : BitVec 14} (h1 : a &&& b = a) (h2 : b &&& c = b) : a &&& c = a := by
  rw [← h1, BitVec.and_assoc, h2]

theorem flags_or (a b : BitVec 14) : a &&& (a ||| b) = a := by
  ext i
  simp
  tauto

theorem Kept.refl (s : State) : Kept s s := ⟨rfl, rfl, rfl, fun _ => rfl, BitVec.and_self, id, id, id⟩

theorem Kept.trans {s t u : State} (h : Kept s t) (k : Kept t u) : Kept s u where
  identity := k.identity.trans h.identity
  atWork := k.atWork.trans h.atWork
  muted := k.muted.trans h.muted
  shut hs := (k.shut (by rw [h.shut hs]; exact hs)).trans (h.shut hs)
  flags := flags_trans h.flags k.flags
  history := k.history ∘ h.history
  log := k.log ∘ h.log
  round := k.round ∘ h.round

/-- The parts of the state that `Kept` and `QueueSound` read, unchanged. -/
theorem Kept.of_same {s t : State} (hsuu : t.suu = s.suu) (hlcu : t.lcu = s.lcu) (hrck : t.rck = s.rck)
    (hrng : t.rng = s.rng) (hf : s.cmp.flags &&& t.cmp.flags = s.cmp.flags) : Kept s t := by
  refine ⟨by rw [hsuu], by rw [hsuu], by rw [hsuu], fun _ => by rw [hlcu], hf, by rw [hlcu]; exact id,
    by rw [hlcu]; exact id, ?_⟩
  unfold RoundBounded
  rw [hrck, hrng]
  exact id

/-- Soundness of the queue reads the queue, the transmitter, the role and the start-up state alone. -/
theorem queueSound_of_same {s t : State} (hq : t.lcu.queue = s.lcu.queue) (hx : t.lcu.tx = s.lcu.tx)
    (hr : t.suu.identity.role = s.suu.identity.role) (hw : t.suu.startUp.atWork = s.suu.startUp.atWork)
    (hm : t.suu.muted = s.suu.muted) (h : QueueSound s) : QueueSound t := by
  unfold QueueSound TxAgrees inAttemptCount at *
  rw [hq, hx, hr, hw, hm]
  exact h

/-- `Kept`, and the queue stays sound. -/
structure KeptSound (s t : State) : Prop extends Kept s t where
  queue : QueueSound s → QueueSound t

theorem KeptSound.refl (s : State) : KeptSound s s := ⟨.refl s, id⟩

theorem KeptSound.trans {s t u : State} (h : KeptSound s t) (k : KeptSound t u) : KeptSound s u :=
  ⟨h.toKept.trans k.toKept, k.queue ∘ h.queue⟩

theorem KeptSound.of_same {s t : State} (hsuu : t.suu = s.suu) (hlcu : t.lcu = s.lcu) (hrck : t.rck = s.rck)
    (hrng : t.rng = s.rng) (hf : s.cmp.flags &&& t.cmp.flags = s.cmp.flags) : KeptSound s t :=
  ⟨.of_same hsuu hlcu hrck hrng hf,
    queueSound_of_same (by rw [hlcu]) (by rw [hlcu]) (by rw [hsuu]) (by rw [hsuu]) (by rw [hsuu])⟩

/-! ### Flags, records, marks -/

theorem raise_keptSound (e : Event) (s : State) : KeptSound s (raise e s) :=
  .of_same rfl rfl rfl rfl (flags_or _ _)

theorem raiseIf_keptSound (b : Bool) (e : Event) (s : State) : KeptSound s (raiseIf b e s) := by
  unfold raiseIf
  split
  · exact raise_keptSound e s
  · exact .refl s

theorem clearMarker_keptSound (s : State) : KeptSound s (clearMarker s) := .of_same rfl rfl rfl rfl BitVec.and_self

theorem clearDirty_keptSound (p : Nat) (s : State) : KeptSound s (clearDirty p s) := .of_same rfl rfl rfl rfl BitVec.and_self

theorem setRecord_keptSound (r : PressRecord) (s : State) : KeptSound s (setRecord r s) :=
  .of_same rfl rfl rfl rfl BitVec.and_self

theorem reportDrop_keptSound (s : State) : KeptSound s (reportDrop s) := .of_same rfl rfl rfl rfl BitVec.and_self

theorem claimDropped_keptSound (s : State) : KeptSound s (claimDropped s) := .of_same rfl rfl rfl rfl BitVec.and_self

theorem choiceDropped_keptSound (s : State) : KeptSound s (choiceDropped s) := .of_same rfl rfl rfl rfl BitVec.and_self

theorem refresh_keptSound (s : State) : KeptSound s (refresh s) := .of_same rfl rfl rfl rfl (by simp)

theorem enterJoined_keptSound (s : State) : KeptSound s (enterJoined s) := by
  have hs : (enterJoined s).suu.identity = s.suu.identity ∧ (enterJoined s).suu.muted = s.suu.muted ∧
      (enterJoined s).suu.startUp.atWork = s.suu.startUp.atWork := by
    unfold enterJoined
    split
    · rename_i h; simp [h, StartUp.atWork]
    · simp
  refine ⟨⟨hs.1, hs.2.2, hs.2.1, by simp, by simp, by simp, by simp, ?_⟩, ?_⟩
  · simp [RoundBounded]
  · exact queueSound_of_same (by simp) (by simp) (by rw [hs.1]) hs.2.2 hs.2.1

/-- The answer clock's run does not touch the round's bounds. -/
theorem answerRunning_kept (b : Bool) (s : State) : KeptSound s (s.withRng { s.rng with answerRunning := b }) :=
  ⟨⟨rfl, rfl, rfl, fun _ => rfl, BitVec.and_self, id, id, id⟩, id⟩

/-! ### Transmitter states -/

theorem setQueue_kept (q : List QFrame) (s : State) : Kept s (setQueue q s) :=
  ⟨rfl, rfl, rfl, fun _ => rfl, BitVec.and_self, id, id, id⟩

/-- A transmitter that is not shut may enter any state. -/
theorem enterTx_kept (x : TxState) (s : State) (h : s.lcu.tx.shut = true → x = s.lcu.tx) : Kept s (enterTx x s) :=
  ⟨rfl, rfl, rfl, h, BitVec.and_self, by simp [enterTx], id, id⟩

theorem settleTx_kept (s : State) (h : s.lcu.tx.shut = false) : Kept s (settleTx s) :=
  enterTx_kept _ s (by simp [h])

theorem offer_kept (s : State) (h : s.lcu.tx.shut = false) : Kept s (offer s) := by
  unfold offer
  split
  · exact .refl s
  · exact (setQueue_kept _ s).trans (enterTx_kept _ _ (by simp [h]))

theorem wait_kept (s : State) : Kept s (wait s) := by
  unfold wait
  split
  · rename_i h; exact enterTx_kept _ s (by simp [h, TxState.shut])
  · exact .refl s

theorem startOrWait_kept (s : State) : Kept s (startOrWait s) := by
  rcases startOrWait_cases s with ⟨-, -, h⟩ | ⟨hx, -, h⟩ | ⟨hx, -, -, h⟩ <;> rw [h]
  · exact .refl s
  · exact offer_kept s (by rcases hx with hx | hx <;> simp [hx, TxState.shut])
  · exact wait_kept s

/-- The frame of lowest class begins its attempt: the queue stays sound (R40, R41). -/
theorem offer_sound (s : State) (hq : SoundQueue s.suu.identity.role s.lcu.queue) (hr : Resting s.lcu.queue)
    (hne : s.lcu.queue ≠ []) (hw : s.suu.startUp.atWork = true) (hm : s.suu.muted = false) : QueueSound (offer s) := by
  unfold offer
  cases hl : s.lcu.queue with
  | nil => exact absurd hl hne
  | cons f rest =>
    rw [hl] at hq hr
    have hf := hq.2 f (by simp)
    have hpl : (beginFrame s f).content.place = f.content.place := by
      unfold beginFrame fillContent; cases f.content <;> rfl
    have hsound : FrameSound (beginFrame s f) :=
      ⟨hpl.trans hf.2.1, hf.2.2.1, hf.2.2.2.1, fun h => by cases h⟩
    have hcount : rest.countP QFrame.inAttempt = 0 := (resting_iff rest).mp fun x hx => hr x (by simp [hx])
    refine ⟨?_, ?_, ⟨?_, ?_, ?_⟩, ?_, ?_⟩
    · exact hq.1
    · intro x hx
      rcases List.mem_cons.mp hx with rfl | hx
      · exact ⟨hf.1, hsound⟩
      · exact hq.2 x (by simp [hx])
    · simp [enterTx, TxState.shut]
    · simp [enterTx]
    · simp [inAttemptCount, enterTx, beginFrame, attemptState, hcount]
    · simp [hw]
    · simp [hm]

/-- A frame freshly queued in a sound queue: it begins, waits, or stands behind what the transmitter is at (R36, R40, R41). -/
theorem startOrWait_insert (c : Content) (h : Hander) (s : State) (hq : QueueSound s) (hx : s.lcu.tx.shut = false)
    (hw : s.suu.startUp.atWork = true) (hr : s.suu.identity.role.hasPlace c.place = true)
    (hn : frameAt c.place s.lcu.queue = none) :
    QueueSound (startOrWait (setQueue (insertFrame (fresh c h) s.lcu.queue) s)) := by
  obtain ⟨hs, ha, ⟨hempty, hne, hcount⟩, hidle, hmuted⟩ := hq
  obtain ⟨hfs, hfa⟩ := fresh_sound c h
  have hm : s.suu.muted = false := by
    cases hm : s.suu.muted with
    | false => rfl
    | true => rw [hmuted hm] at hx; cases hx
  have hins : SoundQueue s.suu.identity.role (insertFrame (fresh c h) s.lcu.queue) :=
    SoundQueue.insert ⟨hs, ha⟩ _ hn hr hfs
  have hnil := insertFrame_ne_nil (fresh c h) s.lcu.queue
  have hcnt : (insertFrame (fresh c h) s.lcu.queue).countP QFrame.inAttempt = (attemptState s.lcu.tx).toNat := by
    rw [(insertFrame_perm _ _).countP_eq, List.countP_cons_of_neg (by simp [hfa]), ← hcount]
  have hrest : s.lcu.tx = .idle ∨ s.lcu.tx = .waiting → Resting (insertFrame (fresh c h) s.lcu.queue) := by
    intro h
    rw [resting_iff, hcnt]
    rcases h with h | h <;> rw [h] <;> rfl
  rcases startOrWait_cases (setQueue (insertFrame (fresh c h) s.lcu.queue) s) with
    ⟨h1, h2, heq⟩ | ⟨htx, -, heq⟩ | ⟨htx, -, -, heq⟩ <;> rw [heq]
  · refine ⟨hins.1, hins.2, ⟨?_, fun _ => hnil, hcnt⟩, fun h => ?_, fun h => ?_⟩
    · rintro (h | h)
      · exact absurd h h1
      · exact absurd (h.symm.trans hx) (by simp)
    · exact absurd (h.symm.trans hw) (by simp)
    · exact absurd (h.symm.trans hm) (by simp)
  · exact offer_sound _ hins (hrest htx) hnil hw hm
  · have hcnt0 := (resting_iff _).mp (hrest htx)
    have hwait : (wait (setQueue (insertFrame (fresh c h) s.lcu.queue) s)).lcu.tx = .waiting ∧
        (wait (setQueue (insertFrame (fresh c h) s.lcu.queue) s)).lcu.queue = insertFrame (fresh c h) s.lcu.queue := by
      unfold wait
      rcases htx with htx | htx <;> rw [htx] <;> simp [enterTx]
      exact htx
    obtain ⟨hwx, hwq⟩ := hwait
    refine ⟨?_, ?_, ⟨?_, ?_, ?_⟩, ?_, ?_⟩
    · rw [hwq]; exact hins.1
    · rw [hwq, wait_suu]; exact hins.2
    · rw [hwx]; simp [TxState.shut]
    · rw [hwq]; exact fun _ => hnil
    · rw [inAttemptCount, hwq, hwx, hcnt0]; rfl
    · simp [hw]
    · simp [hm]

end Sys2Proof.Machine

namespace Sys2Proof.Machine

open Sys2Proof.Safety

/-! ### Hand-overs and requests for pages (R36 to R38, R170) -/

/-- A change that keeps places and attempts, and leaves sound frames, keeps the whole queue sound. -/
theorem queueSound_map (g : QFrame → QFrame) (s : State) (hq : QueueSound s)
    (hg : ∀ f ∈ s.lcu.queue, (g f).place = f.place ∧ (g f).inAttempt = f.inAttempt ∧ FrameSound (g f)) :
    QueueSound (setQueue (s.lcu.queue.map g) s) := by
  obtain ⟨hs, ha, ⟨hempty, hne, hcount⟩, hidle, hmuted⟩ := hq
  have hm := SoundQueue.map (role := s.suu.identity.role) ⟨hs, ha⟩ g fun f hf => ⟨(hg f hf).1, (hg f hf).2.2⟩
  refine ⟨hm.1, hm.2, ⟨fun h => ?_, fun h => ?_, ?_⟩, hidle, hmuted⟩
  · simpa using hempty h
  · simpa using hne h
  · change (s.lcu.queue.map g).countP QFrame.inAttempt = (attemptState s.lcu.tx).toNat
    rw [← hcount, List.countP_map]
    exact List.countP_congr fun f hf => by simp [(hg f hf).2.1]

/-- A CHOICE replaced in its place stays a sound frame (R37). -/
theorem replaceContent_sound (c : Content) (f : QFrame) (hc : c.place = .choice) (hp : f.place = .choice)
    (hf : FrameSound f) :
    (replaceContent c f).place = f.place ∧ (replaceContent c f).inAttempt = f.inAttempt ∧
      FrameSound (replaceContent c f) := by
  obtain ⟨h1, h2, h3, h4⟩ := hf
  unfold replaceContent
  split
  · rename_i hi
    simp [FrameSound, h1, hc, hp, hi, h2]
  · rename_i hi
    obtain ⟨hw, hpd⟩ := h4 (by simpa using hi)
    simp [FrameSound, hc, hp, hw, hpd, Config.maxAttempts]

/-- What each answer to a hand-over says of the state (R36 to R38). -/
theorem handAnswer_cases (c : Content) (s : State) :
    (handAnswer c s = .dropped ∧ s.lcu.tx.shut = true) ∨
      (s.lcu.tx.shut = false ∧
        (handAnswer c s = .noPlace ∨
          s.suu.startUp.atWork = true ∧ s.suu.identity.role.hasPlace c.place = true ∧
            ((handAnswer c s = .queued ∧ frameAt c.place s.lcu.queue = none) ∨
              (handAnswer c s = .replaced ∧ c.place = .choice) ∨ ∃ b, handAnswer c s = .already b))) := by
  unfold handAnswer
  cases hx : s.lcu.tx.shut
  · by_cases hw : s.suu.startUp.atWork = true ∧ s.suu.identity.role.hasPlace c.place = true
    · cases hf : frameAt c.place s.lcu.queue with
      | none => simp [hw]
      | some f =>
        obtain ⟨hw, hr⟩ := hw
        by_cases hc : c.place = .choice ∧ f.withdrawn = false
        · refine .inr ⟨rfl, .inr ⟨hw, hr, .inr (.inl ⟨?_, hc.1⟩)⟩⟩
          rw [if_neg (by simp), if_neg (by simp [hw, hr])]
          exact if_pos hc
        · refine .inr ⟨rfl, .inr ⟨hw, hr, .inr (.inr ⟨f.inAttempt, ?_⟩)⟩⟩
          rw [if_neg (by simp), if_neg (by simp [hw, hr])]
          exact if_neg hc
    · refine .inr ⟨rfl, .inl ?_⟩
      rw [if_neg (by simp), if_pos hw]
  · simp

theorem handOver_keptSound (c : Content) (h : Hander) (s : State) : KeptSound s (handOver c h s) := by
  unfold handOver
  rcases handAnswer_cases c s with ⟨ha, -⟩ | ⟨hx, ha | ⟨hw, hr, ⟨ha, hn⟩ | ⟨ha, hc⟩ | ⟨b, ha⟩⟩⟩ <;> rw [ha] <;> dsimp only
  · exact raise_keptSound _ s
  · exact .refl s
  · exact ⟨(setQueue_kept _ s).trans (startOrWait_kept _), fun hq => startOrWait_insert c h s hq hx hw hr hn⟩
  · refine ⟨setQueue_kept _ s, fun hq => queueSound_map _ s hq fun f hf => ?_⟩
    split
    · rename_i hp
      exact replaceContent_sound c f hc (hp.trans hc) (hq.2.1 f hf).2
    · exact ⟨rfl, rfl, (hq.2.1 f hf).2⟩
  · exact .refl s

theorem requestPage_keptSound (p : Fin 4) (s : State) : KeptSound s (requestPage p s) := by
  unfold requestPage
  split
  · exact handOver_keptSound _ _ s
  · exact .of_same rfl rfl rfl rfl BitVec.and_self
  · exact .refl s
  · exact .refl s

theorem requestAllPages_keptSound (s : State) : KeptSound s (requestAllPages s) :=
  (((requestPage_keptSound 0 s).trans (requestPage_keptSound 1 _)).trans (requestPage_keptSound 2 _)).trans
    (requestPage_keptSound 3 _)

theorem pageAttemptEnded_keptSound (p : Fin 4) (left : Bool) (s : State) :
    KeptSound s (pageAttemptEnded p left s) := by
  unfold pageAttemptEnded
  split
  · split
    · exact (clearDirty_keptSound _ s).trans (requestPage_keptSound p _)
    · exact clearDirty_keptSound _ s
  · exact .refl s

/-! ### What the handers are told (R11, R65, R68, R71, R165, R166) -/

theorem handTimeout_keptSound (s : State) : KeptSound s (handTimeout s) := by
  unfold handTimeout
  split
  · exact .refl s
  · dsimp only
    split
    · exact (handOver_keptSound _ _ s).trans (.of_same rfl rfl rfl rfl BitVec.and_self)
    all_goals exact handOver_keptSound _ _ s

theorem verdictDropped_keptSound (b : Bool) (s : State) : KeptSound s (verdictDropped b s) := by
  have hc := clearMarker_keptSound s
  unfold verdictDropped
  split
  · split
    · exact hc.trans (answerRunning_kept true (clearMarker s))
    · exact hc
  · split
    · exact hc.trans (handTimeout_keptSound _)
    · exact hc

theorem told_keptSound (x : Fate) (f : QFrame) (s : State) : KeptSound s (told x f s) := by
  unfold told
  split
  case h_1 => exact setRecord_keptSound _ s
  case h_2 => exact claimDropped_keptSound s
  case h_3 => exact claimDropped_keptSound s
  case h_4 => exact setRecord_keptSound _ s
  case h_5 => exact choiceDropped_keptSound s
  case h_6 => exact choiceDropped_keptSound s
  case h_7 => exact reportDrop_keptSound s
  case h_8 => exact reportDrop_keptSound s
  case h_9 => exact verdictDropped_keptSound _ s
  case h_10 => exact verdictDropped_keptSound _ s
  case h_11 => exact clearDirty_keptSound _ s
  case h_12 => exact enterJoined_keptSound s
  case h_13 => exact .refl s

theorem tellPage_keptSound (f : QFrame) (b : Bool) (s : State) : KeptSound s (tellPage f b s) := by
  unfold tellPage
  split
  · exact pageAttemptEnded_keptSound _ b s
  · exact .refl s

/-! ### Ends of attempts (R37 to R43) -/

theorem leave_kept (x : Fate) (f : QFrame) (s : State) : Kept s (leave x f s) :=
  ((setQueue_kept _ s).trans (told_keptSound x f _).toKept).trans (tellPage_keptSound f true _).toKept

theorem resolveAttempt_kept (e : AttemptEnd) (f : QFrame) (s : State) : Kept s (resolveAttempt e f s) := by
  unfold resolveAttempt
  split
  · split
    · split
      · exact leave_kept _ f s
      · exact setQueue_kept _ s
    · exact leave_kept _ f s
  split
  · exact leave_kept _ f s
  split
  · exact setQueue_kept _ s
  split
  · exact (raise_keptSound _ s).toKept.trans (leave_kept _ f _)
  · exact (setQueue_kept _ s).trans (tellPage_keptSound f false _).toKept

theorem resolve_kept (e : AttemptEnd) (s : State) : Kept s (resolve e s) := by
  unfold resolve
  split
  · exact .refl s
  · exact resolveAttempt_kept e _ s

/-- Once the attempt has ended, the queue is sound and at rest; the transmitter has not moved yet. -/
theorem resolve_sound (e : AttemptEnd) (s : State) (hq : QueueSound s) :
    SoundQueue s.suu.identity.role (resolve e s).lcu.queue ∧ Resting (resolve e s).lcu.queue ∧
      (resolve e s).lcu = { s.lcu with queue := (resolve e s).lcu.queue } := by
  cases hf : attempted s with
  | none =>
    have hs : resolve e s = s := by unfold resolve; rw [hf]
    rw [hs]
    exact ⟨⟨hq.1, hq.2.1⟩, by simpa [attempted, Resting] using hf, rfl⟩
  | some f =>
    rw [resolve_eq e f s hq hf]
    obtain ⟨h1, h2⟩ := queueAt_sound e f s hq hf
    exact ⟨h1, h2, rfl⟩

/-- A queue at rest under IDLE or WAITING is sound (R41). -/
theorem settleTx_sound (s : State) (hq : SoundQueue s.suu.identity.role s.lcu.queue) (hr : Resting s.lcu.queue)
    (hw : s.suu.startUp.atWork = true) (hm : s.suu.muted = false) : QueueSound (settleTx s) := by
  have hc := (resting_iff _).mp hr
  have hx := settleTx_lcu s
  refine ⟨by rw [hx]; exact hq.1, by rw [hx, settleTx_suu]; exact hq.2, ?_, by simp [hw], by simp [hm]⟩
  unfold TxAgrees inAttemptCount
  rw [hx]
  by_cases hn : s.lcu.queue = []
  · simp [hn, attemptState]
  · simp [hn, hc, attemptState, TxState.shut]

/-- In a sound state a transmitter that is neither shut nor IDLE is at work, and the station not muted (R14, R41). -/
theorem working_facts (s : State) (hq : QueueSound s) (hx : s.lcu.tx.shut = false) :
    s.suu.muted = false ∧ (s.lcu.tx ≠ .idle → s.suu.startUp.atWork = true) := by
  obtain ⟨-, -, -, hidle, hmuted⟩ := hq
  refine ⟨?_, fun h => ?_⟩
  · by_contra hm
    rw [hmuted (by simpa using hm)] at hx
    cases hx
  · by_contra hw
    exact h (hidle (by simpa using hw))

theorem endAttempt_keptSound (e : AttemptEnd) (s : State) (hx : attemptState s.lcu.tx = true) :
    KeptSound s (endAttempt e s) := by
  obtain ⟨h1, -, hshut⟩ := attemptState_busy hx
  have hk := resolve_kept e s
  refine ⟨⟨by simpa [endAttempt] using hk.identity, by simpa [endAttempt] using hk.atWork,
    by simpa [endAttempt] using hk.muted, by simp [hshut], by simpa [endAttempt] using hk.flags, fun h => ?_, ?_, ?_⟩,
    fun hq => ?_⟩
  · have := hk.history h
    simp [endAttempt, settleTx, enterTx, this]
  · simpa [endAttempt, settleTx, enterTx] using hk.log
  · simpa [endAttempt, RoundBounded] using hk.round
  · obtain ⟨hm, hw⟩ := working_facts s hq hshut
    obtain ⟨h2, h3, -⟩ := resolve_sound e s hq
    exact settleTx_sound _ (by rw [hk.identity]; exact h2) h3 (by rw [hk.atWork]; exact hw h1) (by rw [hk.muted]; exact hm)

end Sys2Proof.Machine

namespace Sys2Proof.Machine

open Sys2Proof.Safety

/-! ### Withdrawals (R39, R95) -/

theorem withdraw_kept (p : Place) (s : State) : Kept s (withdraw p s) := by
  unfold withdraw
  split
  · exact .refl s
  · split
    · exact setQueue_kept _ s
    · have hk := (setQueue_kept (removeAt p s.lcu.queue) s).trans (told_keptSound .withdrawn ‹QFrame› _).toKept
      dsimp only
      split
      · rename_i h
        exact hk.trans (enterTx_kept _ _ (by simp [h.1, TxState.shut]))
      · exact hk

/-- A frame withdrawn leaves its hander's record alone but for line controller and queue. -/
theorem told_withdrawn_lcu (f : QFrame) (s : State) : (told .withdrawn f s).lcu = s.lcu := by
  unfold told
  split <;> simp_all

/-- A queue that has lost frames not in attempt is sound, a transmitter left WAITING for nothing being IDLE (R39, R41). -/
theorem queueSound_without (s t : State) (q : List QFrame) (hq : QueueSound s) (hsub : q.Sublist s.lcu.queue)
    (hc : q.countP QFrame.inAttempt = s.lcu.queue.countP QFrame.inAttempt) (hk : Kept s t) (htq : t.lcu.queue = q)
    (htx : t.lcu.tx = if s.lcu.tx = .waiting ∧ q = [] then .idle else s.lcu.tx) : QueueSound t := by
  obtain ⟨hs, ha, ⟨hempty, hne, hcount⟩, hidle, hmuted⟩ := hq
  have h := SoundQueue.sublist (role := s.suu.identity.role) ⟨hs, ha⟩ hsub
  have hcq : q.countP QFrame.inAttempt = (attemptState s.lcu.tx).toNat := hc.trans hcount
  refine ⟨by rw [htq]; exact h.1, by rw [htq, hk.identity]; exact h.2, ?_, fun hw => ?_, fun hm => ?_⟩
  · unfold TxAgrees inAttemptCount
    rw [htq, htx]
    split
    · rename_i hi
      simp [hi.2, attemptState]
    · rename_i hi
      refine ⟨fun h => ?_, fun h he => hi ⟨h, he⟩, hcq⟩
      have := hempty h
      rw [this] at hsub
      exact List.sublist_nil.mp hsub
  · rw [htx, hidle (hk.atWork ▸ hw)]
    simp
  · have := hmuted (hk.muted ▸ hm)
    rw [htx]
    split
    · rename_i hi; rw [hi.1] at this; cases this
    · exact this

/-- A withdrawal keeps the queue sound (R39). -/
theorem withdraw_keptSound (p : Place) (s : State) : KeptSound s (withdraw p s) := by
  refine ⟨withdraw_kept p s, fun hq => ?_⟩
  have hk := withdraw_kept p s
  unfold withdraw at hk ⊢
  split
  · exact hq
  · rename_i f hf
    obtain ⟨hmem, hfp⟩ := frameAt_some hf
    split
    · rename_i hfa
      refine queueSound_map _ s hq fun x hx => ?_
      obtain ⟨h1, h2, h3, h4⟩ := (hq.2.1 x hx).2
      split
      · rename_i hxp
        have hxf := place_unique _ x f hq.1 hx hmem (hxp.trans hfp.symm)
        exact ⟨rfl, rfl, h1, h2, h3, fun hn => by rw [hxf, hfa] at hn; cases hn⟩
      · exact ⟨rfl, rfl, h1, h2, h3, h4⟩
    · rename_i hfa
      have hcount : (removeAt p s.lcu.queue).countP QFrame.inAttempt = s.lcu.queue.countP QFrame.inAttempt := by
        unfold removeAt
        rw [List.countP_filter]
        refine List.countP_congr fun x hx => ?_
        by_cases hxp : x.place = p
        · rw [place_unique _ x f hq.1 hx hmem (hxp.trans hfp.symm)]
          simp [hfa]
        · simp [hxp]
      simp only [hf, hfa] at hk
      have hl : (told .withdrawn f (setQueue (removeAt p s.lcu.queue) s)).lcu =
          { s.lcu with queue := removeAt p s.lcu.queue } := told_withdrawn_lcu f _
      refine queueSound_without s _ (removeAt p s.lcu.queue) hq List.filter_sublist hcount hk ?_ ?_
      · dsimp only
        split <;> simp [hl, enterTx]
      · dsimp only
        rw [hl]
        by_cases hi : s.lcu.tx = .waiting ∧ removeAt p s.lcu.queue = []
        · simp [hi, enterTx]
        · rw [if_neg (by simpa using hi), if_neg hi, hl]

theorem withdrawOwn_keptSound (s : State) : KeptSound s (withdrawOwn s) :=
  ((withdraw_keptSound .claim s).trans (withdraw_keptSound .choice _)).trans (withdraw_keptSound .pass _)

/-! ### The queue emptied (R14, R43, R49, R50) -/

/-- A frame dropped by the emptying of the queue leaves the line controller alone (R43). -/
@[simp] theorem dropFrame_lcu (s : State) (f : QFrame) : (dropFrame s f).lcu = s.lcu := by
  unfold dropFrame told verdictDropped
  (repeat' split) <;> simp_all

@[simp] theorem foldDrop_lcu (q : List QFrame) (s : State) : (q.foldl dropFrame s).lcu = s.lcu := by
  induction q generalizing s with
  | nil => rfl
  | cons f q ih => rw [List.foldl_cons, ih, dropFrame_lcu]

@[simp] theorem emptyQueue_lcu (s : State) : (emptyQueue s).lcu = { s.lcu with queue := [] } := by
  simp [emptyQueue]

theorem foldDrop_kept (q : List QFrame) (s : State) : Kept s (q.foldl dropFrame s) := by
  induction q generalizing s with
  | nil => exact .refl s
  | cons f q ih =>
    exact ((raise_keptSound _ s).trans (told_keptSound .emptied f _)).toKept.trans (ih (dropFrame s f))

theorem emptyQueue_kept (s : State) : Kept s (emptyQueue s) :=
  (setQueue_kept [] s).trans (foldDrop_kept s.lcu.queue _)

theorem stopTimers_kept (s : State) : Kept s (stopTimers s) :=
  ⟨rfl, rfl, rfl, fun _ => rfl, BitVec.and_self, id, id, id⟩

/-- An empty queue under a shut transmitter is sound (R49, R50). -/
theorem queueSound_shut (s : State) (hx : s.lcu.tx.shut = true) (hq : s.lcu.queue = []) (hw : s.suu.startUp.atWork = true) :
    QueueSound s := by
  refine ⟨by simp [hq], by simp [hq], ⟨fun _ => hq, fun h => ?_, ?_⟩, by simp [hw], fun _ => hx⟩
  · rw [h] at hx; cases hx
  · rw [inAttemptCount, hq]
    cases h : s.lcu.tx <;> simp_all [TxState.shut, attemptState]

/-- HALTED is entered by a transmitter that is not shut, at a station at work: the queue is empty (R49). -/
theorem enterHalted_keptSound (s : State) (hx : s.lcu.tx.shut = false) :
    Kept s (enterHalted s) ∧ (s.suu.startUp.atWork = true → QueueSound (enterHalted s)) := by
  have hk : Kept s (emptyQueue (stopTimers (raise .halted (enterTx .halted s)))) :=
    (((enterTx_kept .halted s (by simp [hx])).trans (raise_keptSound _ _).toKept).trans (stopTimers_kept _)).trans
      (emptyQueue_kept _)
  refine ⟨hk.trans (enterJoined_keptSound _).toKept, fun hw => (enterJoined_keptSound _).queue ?_⟩
  exact queueSound_shut _ (by simp [stopTimers, enterTx, TxState.shut]) (by simp) (by rw [hk.atWork]; exact hw)

end Sys2Proof.Machine

namespace Sys2Proof.Machine

open Sys2Proof.Safety

/-! ### The round engine (R80 to R95) -/

/-- A round context within its bounds may take the place of another. -/
theorem withRng_keptSound (r : Rng) (s : State) (h : RoundBounded s → RoundBounded (s.withRng r)) :
    KeptSound s (s.withRng r) :=
  ⟨⟨rfl, rfl, rfl, fun _ => rfl, BitVec.and_self, id, id, h⟩, id⟩

/-- Any phase but LIVE, UNSYNCED and READING suits every turn number. -/
theorem setPhase_keptSound (p : Phase) (s : State) (h : p ≠ .live) (h2 : p ≠ .unsynced) (h3 : p ≠ .reading) :
    KeptSound s (setPhase p s) := by
  refine withRng_keptSound _ s fun ⟨a1, a2, _, _, a5⟩ => ⟨a1, a2, ?_, ?_, a5⟩
  · rintro (hp | hp)
    · exact absurd hp h2
    · exact absurd hp h3
  · exact fun hp => absurd hp h

/-- LIVE suits every turn number under the greatest (R91). -/
theorem setLive_keptSound (s : State) (h : RoundBounded s → s.rng.turn < Config.maxTurn) : KeptSound s (setPhase .live s) := by
  refine withRng_keptSound _ s fun hb => ?_
  obtain ⟨a1, a2, -, -, a5⟩ := id hb
  exact ⟨a1, a2, by simp, fun _ => h hb, a5⟩

theorem stopClock_keptSound (s : State) : KeptSound s (s.withRck { s.rck with running := false }) :=
  ⟨⟨rfl, rfl, rfl, fun _ => rfl, BitVec.and_self, id, id, id⟩, id⟩

theorem enterEnded_keptSound (s : State) : KeptSound s (enterEnded s) := by
  have h1 : KeptSound s (s.withRng { s.rng with phase := .ended, answerRunning := false }) :=
    (setPhase_keptSound .ended s (by decide) (by decide) (by decide)).trans (answerRunning_kept false _)
  exact ((h1.trans (stopClock_keptSound _)).trans (withdrawOwn_keptSound _)).trans (raise_keptSound _ _)

/-- A grant is due in LIVE alone, so that the turn number stays within its bound (R84, R91, R106). -/
theorem grant_keptSound (s : State) (h : grantDue s = true) : KeptSound s (grant s) := by
  have hlive : s.rng.phase = .live := by
    unfold grantDue at h
    simp only [Bool.and_eq_true, beq_iff_eq] at h
    exact h.1.1.1
  unfold grant
  split
  · exact .refl s
  · refine KeptSound.trans (t := s.withClt ⟨grantHead s.clt.entries⟩) (.of_same rfl rfl rfl rfl BitVec.and_self)
      ((withRng_keptSound _ _ ?_).trans (raise_keptSound _ _))
    rintro ⟨h1, -, -, h4, h5, h6, h7⟩
    exact ⟨h1, h4 hlive, by simp, by simp, h6, h6, h7⟩

theorem advance_keptSound (s : State) : KeptSound s (advance s) := by
  unfold advance
  split
  · exact setPhase_keptSound _ s (by decide) (by decide) (by decide)
  split
  · rename_i h; exact grant_keptSound s h
  split
  · exact enterEnded_keptSound s
  · exact .refl s

theorem closeTurn_keptSound (t : Nat) (o : TurnOutcome) (s : State) : KeptSound s (closeTurn t o s) := by
  unfold closeTurn
  refine KeptSound.trans (t := s.withClt ⟨endEntry t o s.clt.entries⟩) (.of_same rfl rfl rfl rfl BitVec.and_self)
    ((withRng_keptSound _ _ ?_).trans (raise_keptSound _ _))
  rintro ⟨h1, h2, h3, h4, -, h6, h7⟩
  exact ⟨h1, h2, h3, h4, Nat.zero_le _, h6, h7⟩

/-- The sixteenth turn ends the round, so that LIVE returns with a turn number to spare (R87, R91). -/
theorem phaseAfterTurn_keptSound (o : TurnOutcome) (s : State) : KeptSound s (phaseAfterTurn o s) := by
  unfold phaseAfterTurn
  split
  · exact .refl s
  split
  · exact enterEnded_keptSound s
  · rename_i h
    refine setLive_keptSound s fun _ => ?_
    simp only [endsRound, Bool.or_eq_true, decide_eq_true_eq, not_or, not_le] at h
    exact h.2

theorem endTurnByPass_keptSound (t : Nat) (s : State) : KeptSound s (endTurnByPass t s) :=
  (closeTurn_keptSound t .pass s).trans (phaseAfterTurn_keptSound .pass _)

/-- A change of the scoreboard touches scoreboard and flags alone. -/
theorem commitScores_keptSound (r : List TeamRec) (s : State) : KeptSound s (commitScores r s) :=
  KeptSound.trans (t := s.withScu ⟨rankAll r⟩) (.of_same rfl rfl rfl rfl BitVec.and_self) (raiseIf_keptSound _ _ _)

theorem takeCheckTotal_keptSound (team : Nat) (c : Int) (s : State) : KeptSound s (takeCheckTotal team c s) := by
  unfold takeCheckTotal
  split
  · exact .refl s
  · exact (commitScores_keptSound _ s).trans (raiseIf_keptSound _ _ _)

theorem takePage_keptSound (page : Nat) (totals : List Int) (s : State) : KeptSound s (takePage page totals s) :=
  (commitScores_keptSound _ s).trans (raiseIf_keptSound _ _ _)

/-- A turn of 1..16 made the turn in progress, in a phase other than LIVE (R90). -/
theorem takeTurn_keptSound (turn team : Nat) (s : State) (h : turn ≤ Config.maxTurn) (hl : s.rng.phase ≠ .live)
    (hu : s.rng.phase ≠ .unsynced) (hr : s.rng.phase ≠ .reading) :
    KeptSound s (s.withRng { s.rng with turn := turn, answering := some team }) := by
  refine withRng_keptSound _ s fun ⟨a1, _, _, _, a5⟩ => ⟨a1, h, ?_, fun hp => absurd hp hl, a5⟩
  rintro (hp | hp)
  · exact absurd hp hu
  · exact absurd hp hr

theorem align_keptSound (turn team : Nat) (s : State) : KeptSound s (align turn team s) := by
  unfold align
  split
  · exact .refl s
  · exact KeptSound.trans (t := s.withClt ⟨alignEntries s.rng s.rck.count team s.clt.entries⟩)
      (.of_same rfl rfl rfl rfl BitVec.and_self) (raise_keptSound _ _)

/-- The end of a turn does not read the phase but for ENDED: HELD in its place ends it alike. -/
theorem phaseAfterTurn_setPhase (o : TurnOutcome) (p : Phase) (s : State) (h : s.rng.phase ≠ .ended) (hp : p ≠ .ended) :
    phaseAfterTurn o (setPhase p s) = phaseAfterTurn o s := by
  unfold phaseAfterTurn
  rw [if_neg (show (setPhase p s).rng.phase ≠ .ended from hp), if_neg h]
  rfl

theorem raiseIf_setPhase (b : Bool) (e : Event) (p : Phase) (s : State) :
    raiseIf b e (setPhase p s) = setPhase p (raiseIf b e s) := by
  cases b <;> rfl

theorem commitScores_setPhase (r : List TeamRec) (p : Phase) (s : State) :
    commitScores r (setPhase p s) = setPhase p (commitScores r s) :=
  raiseIf_setPhase _ _ p (s.withScu ⟨rankAll r⟩)

/-- The scoring of a turn does not read the phase. -/
theorem scoreTurn_setPhase (turn team : Nat) (o : TurnOutcome) (p : Phase) (s : State) :
    scoreTurn turn team o (setPhase p s) = setPhase p (scoreTurn turn team o s) :=
  commitScores_setPhase _ p s

theorem takeCheckTotal_setPhase (team : Nat) (c : Int) (p : Phase) (s : State) :
    takeCheckTotal team c (setPhase p s) = setPhase p (takeCheckTotal team c s) := by
  unfold takeCheckTotal
  by_cases hr : s.suu.identity.role = .console
  · rw [if_pos hr, if_pos (show (setPhase p s).suu.identity.role = .console from hr)]
  · rw [if_neg hr, if_neg (show ¬(setPhase p s).suu.identity.role = .console from hr), ← raiseIf_setPhase,
      ← commitScores_setPhase]
    rfl

/-- A full verdict's turn is one of 1..16, so that it may be taken over; the turn's end decides the phase (R89, R90, R91). -/
theorem fullVerdict_keptSound (turn team : Nat) (o : TurnOutcome) (c : Int) (s : State) (h : turn ≤ Config.maxTurn) :
    KeptSound s (fullVerdict turn team o c s) := by
  have hrng : (align turn team s).rng = s.rng := by simp
  have hend : ∀ x, KeptSound x (phaseAfterTurn o (takeCheckTotal team c (scoreTurn turn team o (closeTurn team o x)))) :=
    fun x => (((closeTurn_keptSound team o x).trans (commitScores_keptSound _ _)).trans
      (takeCheckTotal_keptSound team c _)).trans (phaseAfterTurn_keptSound o _)
  unfold fullVerdict
  refine (align_keptSound turn team s).trans ?_
  by_cases he : s.rng.phase = .ended
  · exact (takeTurn_keptSound turn team _ h (by simp [he]) (by simp [he]) (by simp [he])).trans (hend _)
  · dsimp only
    rw [← phaseAfterTurn_setPhase o .held _ (by simpa [closeTurn] using he) (by decide), ← takeCheckTotal_setPhase,
      ← scoreTurn_setPhase]
    exact ((setPhase_keptSound .held _ (by decide) (by decide) (by decide)).trans
      (takeTurn_keptSound turn team _ h (by simp [setPhase]) (by simp [setPhase]) (by simp [setPhase]))).trans (hend _)

end Sys2Proof.Machine

namespace Sys2Proof.Machine

open Sys2Proof.Safety

/-! ### What a step carries over -/

/-- What every step carries over that is no reset, LOADING or CLEAR_EVENTS: as `KeptSound`, but the muted marker may be set. -/
structure Carries (s t : State) : Prop where
  identity : t.suu.identity = s.suu.identity
  muted : s.suu.muted = true → t.suu.muted = true
  shut : s.lcu.tx.shut = true → t.lcu.tx = s.lcu.tx
  flags : s.cmp.flags &&& t.cmp.flags = s.cmp.flags
  history : s.lcu.history.length = 4 → t.lcu.history.length = 4
  log : s.lcu.log.length ≤ Config.faultLogSize → t.lcu.log.length ≤ Config.faultLogSize
  round : RoundBounded s → RoundBounded t
  queue : QueueSound s → QueueSound t

theorem KeptSound.carries {s t : State} (h : KeptSound s t) : Carries s t :=
  ⟨h.identity, fun hm => h.muted.trans hm, h.shut, h.flags, h.history, h.log, h.round, h.queue⟩

theorem Carries.trans {s t u : State} (h : Carries s t) (k : Carries t u) : Carries s u where
  identity := k.identity.trans h.identity
  muted := k.muted ∘ h.muted
  shut hs := (k.shut (by rw [h.shut hs]; exact hs)).trans (h.shut hs)
  flags := flags_trans h.flags k.flags
  history := k.history ∘ h.history
  log := k.log ∘ h.log
  round := k.round ∘ h.round
  queue := k.queue ∘ h.queue

/-- A step carries over what its operation does, outputs apart. -/
theorem when_carries {b : Bool} {f : State → State} {s t : State} (h : when b f s = .next t)
    (hf : b = true → Carries s (f s)) : Carries s t := by
  cases b
  · rw [when_not_occurs f s rfl] at h
    cases h
    exact (KeptSound.refl s).carries
  · rw [when_occurs f s rfl] at h
    cases h
    exact (hf rfl).trans (refresh_keptSound _).carries

/-! ### The muted marker (R13, R14, R50) -/

/-- MUTED is entered at a station at work; HALTED stays (R50). -/
theorem mute_carries (s : State) (hw : s.suu.startUp.atWork = true) : Carries s (mute s) := by
  unfold mute
  split
  · exact (KeptSound.refl s).carries
  · let m := s.withSuu { s.suu with muted := true }
    have hk : Kept m (enterMuted m) := by
      unfold enterMuted
      split
      · exact .refl m
      · rename_i hh
        refine ((enterTx_kept .muted m fun hx => ?_).trans (stopTimers_kept _)).trans (emptyQueue_kept _)
        cases h : m.lcu.tx <;> simp_all [TxState.shut]
    have hk' := hk.trans (enterJoined_keptSound _).toKept
    refine ⟨hk'.identity, fun _ => hk'.muted, hk'.shut, hk'.flags, hk'.history, hk'.log, hk'.round, fun hq => ?_⟩
    refine (enterJoined_keptSound _).queue (queueSound_shut _ ?_ ?_ (by rw [hk.atWork]; exact hw))
    all_goals
      unfold enterMuted
      split
    · rename_i h; rw [h]; rfl
    · simp [stopTimers, enterTx, TxState.shut]
    · rename_i h; exact hq.2.2.1.1 (.inr (by rw [show s.lcu.tx = .halted from h]; rfl))
    · simp

theorem checkDuplicate_carries (own : Bool) (desk : Nat) (s : State) (hw : s.suu.startUp.atWork = true) :
    Carries s (checkDuplicate own desk s) := by
  unfold checkDuplicate
  split
  · exact (raise_keptSound _ s).carries.trans (mute_carries _ hw)
  · exact (KeptSound.refl s).carries

/-! ### The common parts of a taking (R31 to R33, R188) -/

theorem frameEnd_keptSound (s : State) : KeptSound s (frameEnd s) :=
  ⟨⟨rfl, rfl, rfl, fun _ => rfl, BitVec.and_self, id, id, id⟩, id⟩

theorem takenAtLine_keptSound (s : State) : KeptSound s (takenAtLine s) := by
  unfold takenAtLine
  split
  · rename_i h
    have hx : s.lcu.tx = .slots := by simpa [ownAttempt] using h
    exact (frameEnd_keptSound s).trans (endAttempt_keptSound _ _ (by simp [frameEnd, hx, attemptState]))
  · exact frameEnd_keptSound s

theorem setEntry_keptSound (d : Nat) (f : PresEntry → PresEntry) (s : State) : KeptSound s (setEntry d f s) :=
  .of_same (by simp) (by simp) (by simp) (by simp) (by simp)

theorem markHeard_keptSound (d r : Nat) (s : State) : KeptSound s (markHeard d r s) :=
  (setEntry_keptSound d _ s).trans (raiseIf_keptSound _ _ _)

theorem describe_keptSound (d : Nat) (role team : Byte) (x : PresEntry → PresEntry) (s : State) :
    KeptSound s (describe d role team x s) :=
  (setEntry_keptSound d _ s).trans (raiseIf_keptSound _ _ _)

/-- A taking carries over what its owners' effect keeps. -/
theorem takes_carries {f : Frame} {eff : State → State} {s t : State} (h : takes f eff s = .next t)
    (he : ∀ x, KeptSound x (eff x)) : Carries s t := by
  refine when_carries h fun hc => ?_
  have hw : s.suu.startUp.atWork = true := by
    unfold canTake at hc
    simp only [Bool.and_eq_true] at hc
    exact hc.1.1.1.1
  unfold taking
  have hk := (takenAtLine_keptSound s).trans (markHeard_keptSound f.desk.toNat f.round.toNat _)
  have hu : KeptSound s
      (if senderAllowed f.desk.toNat f.body then eff (markHeard f.desk.toNat f.round.toNat (takenAtLine s))
       else markHeard f.desk.toNat f.round.toNat (takenAtLine s)) := by
    split
    · exact hk.trans (he _)
    · exact hk
  exact hu.carries.trans (checkDuplicate_carries _ _ _ (by rw [hu.atWork]; exact hw))

/-! ### What the owners do with a frame (R33) -/

/-- An OPEN's round context is within its bounds (R75, R76, R77). -/
theorem loadRound_bounded (round : Byte) (b : OpenBlock) (s : State) (hc : s.rck.count ≤ Config.clockMax)
    (hr : s.rng = loadRound round b) : RoundBounded s := by
  have ha : b.armDelay.toNat < 256 := b.armDelay.isLt
  have hw : b.armDelay.toNat * 1000 + blockWindow b * 10000 ≤ Config.clockMax := by
    have h1 : blockWindow b ≤ (Config.clockMax - b.armDelay.toNat * 1000) / 10000 := Nat.min_le_right _ _
    simp only [Config.clockMax] at *
    omega
  rw [RoundBounded, hr]
  refine ⟨hc, by simp [loadRound], by simp [loadRound], by simp [loadRound], by simp [loadRound], ?_, hw⟩
  simp [loadRound, clamp]

theorem reachArm_keptSound (s : State) : KeptSound s (reachArm s) := by
  unfold reachArm
  split
  · rename_i h
    have hp : s.rng.phase = .reading := by simp [armDue] at h; exact h.1
    refine (setLive_keptSound s ?_).trans (advance_keptSound _)
    rintro ⟨-, -, h3, -⟩
    rw [h3 (.inr hp)]
    decide
  · exact .refl s

theorem openEffect_keptSound (round : Byte) (b : OpenBlock) (s : State) : KeptSound s (openEffect round b s) := by
  unfold openEffect
  refine (withdrawOwn_keptSound s).trans (KeptSound.trans ?_ ((raise_keptSound _ _).trans (reachArm_keptSound _)))
  exact ⟨⟨rfl, rfl, rfl, fun _ => rfl, BitVec.and_self, id, id, fun _ => loadRound_bounded round b _ (Nat.zero_le _) rfl⟩, id⟩

theorem closeEffect_keptSound (round : Byte) (point : Triple) (s : State) : KeptSound s (closeEffect round point s) := by
  unfold closeEffect
  split
  · refine KeptSound.trans
      (withRng_keptSound { s.rng with closePoint := min s.rng.closePoint point.toNat, closed := true } s ?_) ?_
    · rintro ⟨h1, h2, h3, h4, h5, h6, h7⟩
      exact ⟨h1, h2, h3, h4, h5, h6, (Nat.min_le_left _ _).trans h7⟩
    · dsimp only
      split
      · exact enterEnded_keptSound _
      · exact advance_keptSound _
  · exact .refl s

theorem verdictAtConsole_keptSound (own : Bool) (s : State) : KeptSound s (verdictAtConsole own s) := by
  unfold verdictAtConsole
  split
  · exact clearMarker_keptSound s
  · exact .refl s

/-- A verdict handled in full has a turn of 1..16 (R89). -/
theorem verdictHandling_full {r : Rng} {round turn team code : Nat} {o : TurnOutcome}
    (h : verdictHandling r round turn team code = .full o) : turn ≤ Config.maxTurn := by
  unfold verdictHandling at h
  split at h; · cases h
  split at h; · cases h
  split at h; · cases h
  split at h
  · cases h
  · rename_i h4; simp only [Config.maxTurn]; omega

theorem verdictEffect_keptSound (own : Bool) (round turn team outcome : Byte) (check : Half) (s : State) :
    KeptSound s (verdictEffect own round turn team outcome check s) := by
  unfold verdictEffect
  split
  · exact verdictAtConsole_keptSound own s
  · exact (takeCheckTotal_keptSound _ _ s).trans (verdictAtConsole_keptSound own _)
  · rename_i o h
    exact ((fullVerdict_keptSound _ _ o _ s (verdictHandling_full h)).trans (verdictAtConsole_keptSound own _)).trans
      (advance_keptSound _)

theorem supersede_keptSound (turn : Nat) (s : State) : KeptSound s (supersede turn s) := by
  unfold supersede
  split
  · exact ((withdraw_keptSound _ s).trans (clearMarker_keptSound _)).trans (raise_keptSound _ _)
  · exact .refl s

theorem passEffect_keptSound (round turn team : Byte) (s : State) : KeptSound s (passEffect round turn team s) := by
  unfold passEffect
  split
  · exact ((endTurnByPass_keptSound _ s).trans (supersede_keptSound _ _)).trans (advance_keptSound _)
  · exact .refl s

theorem claimAtList_keptSound (d r x m : Nat) (s : State) : KeptSound s (claimAtList d r x m s) := by
  unfold claimAtList
  split
  · exact .of_same rfl rfl rfl rfl BitVec.and_self
  · exact .refl s

theorem claimAtDesk_keptSound (d r x m : Nat) (s : State) : KeptSound s (claimAtDesk d r x m s) := by
  unfold claimAtDesk
  split
  · exact setRecord_keptSound _ s
  split
  · exact withdraw_keptSound _ s
  · exact .refl s

theorem claimEffect_keptSound (desk : Desk) (round : Byte) (stamp : Triple) (team : Byte) (s : State) :
    KeptSound s (claimEffect desk round stamp team s) :=
  ((claimAtList_keptSound _ _ _ _ s).trans (claimAtDesk_keptSound _ _ _ _ _)).trans (advance_keptSound _)

theorem choiceEffect_keptSound (desk : Desk) (round : Byte) (stamp : Triple) (key team : Byte) (s : State) :
    KeptSound s (choiceEffect desk round stamp key team s) := by
  have h1 : KeptSound s (choiceAtTable desk.toNat round.toNat stamp.toNat key.toNat team.toNat s) := by
    unfold choiceAtTable
    split
    · exact .of_same rfl rfl rfl rfl BitVec.and_self
    · exact .refl s
  refine h1.trans ?_
  unfold choiceEffect choiceAtDesk
  split
  · exact setRecord_keptSound _ _
  · exact .refl _

theorem tallyEffect_keptSound (desk : Desk) (page : Byte) (totals : List Half) (s : State) :
    KeptSound s (tallyEffect desk page totals s) := by
  unfold tallyEffect
  split
  · exact takePage_keptSound _ _ s
  · exact .refl s

theorem consolePages_keptSound (s : State) : KeptSound s (if consoleStation s then requestAllPages s else s) := by
  split
  · exact requestAllPages_keptSound s
  · exact .refl s

theorem revealEffect_keptSound (round key : Byte) (s : State) : KeptSound s (revealEffect round key s) := by
  unfold revealEffect
  split
  · have h1 : KeptSound s (withdraw .choice (s.withRng { s.rng with correctKey := some key.toNat })) :=
      (withRng_keptSound { s.rng with correctKey := some key.toNat } s id).trans (withdraw_keptSound _ _)
    have h2 : KeptSound s
        (enterEnded
          (if key = 0 then withdraw .choice (s.withRng { s.rng with correctKey := some key.toNat })
           else scoreReveal key.toNat (withdraw .choice (s.withRng { s.rng with correctKey := some key.toNat })))) := by
      split
      · exact h1.trans (enterEnded_keptSound _)
      · exact (h1.trans (commitScores_keptSound _ _)).trans (enterEnded_keptSound _)
    exact h2.trans (consolePages_keptSound _)
  · exact .refl s

theorem rollEffect_keptSound (id window : Byte) (s : State) : KeptSound s (rollEffect id window s) := by
  have h1 : KeptSound s (startPolling id.toNat window.toNat s) := by
    unfold startPolling
    split
    · exact .of_same rfl rfl rfl rfl BitVec.and_self
    · exact .refl s
  unfold rollEffect
  dsimp only
  split
  · exact h1.trans (handOver_keptSound _ _ _)
  · exact h1

theorem presentEffect_keptSound (desk : Desk) (role team id flags : Byte) (s : State) :
    KeptSound s (presentEffect desk role team id flags s) := by
  unfold presentEffect addReply
  split
  · exact (describe_keptSound _ _ _ _ s).trans (.of_same rfl rfl rfl rfl BitVec.and_self)
  · exact describe_keptSound _ _ _ _ s

theorem helloEffect_keptSound (desk : Desk) (role team : Byte) (tag : Half) (s : State) :
    KeptSound s (helloEffect desk role team tag s) := by
  unfold helloEffect
  dsimp only
  split
  · exact (describe_keptSound _ _ _ _ s).trans (requestAllPages_keptSound _)
  · exact describe_keptSound _ _ _ _ s

end Sys2Proof.Machine

namespace Sys2Proof.Machine

open Sys2Proof.Safety

/-! ### The line and the station's own attempts (R19 to R34) -/

/-- A change at the line interface, or of the fault log's note of a dominant period, alone. -/
theorem line_keptSound {s t : State} (hs : t.suu = s.suu) (hl : t.lcu = { s.lcu with domFrame := t.lcu.domFrame })
    (hrck : t.rck = s.rck) (hrng : t.rng = s.rng) (hc : t.cmp = s.cmp) : KeptSound s t := by
  refine ⟨⟨by rw [hs], by rw [hs], by rw [hs], fun _ => by rw [hl], by rw [hc]; exact BitVec.and_self,
    by rw [hl]; exact id, by rw [hl]; exact id, ?_⟩, ?_⟩
  · unfold RoundBounded; rw [hrck, hrng]; exact id
  · exact queueSound_of_same (by rw [hl]) (by rw [hl]) (by rw [hs]) (by rw [hs]) (by rw [hs])

/-- A WAITING transmitter offers its first frame (R40). -/
theorem offer_keptSound (s : State) (h : s.lcu.tx = .waiting) : KeptSound s (offer s) := by
  have hx : s.lcu.tx.shut = false := by rw [h]; rfl
  refine ⟨offer_kept s hx, fun hq => ?_⟩
  obtain ⟨hm, hw⟩ := working_facts s hq hx
  refine offer_sound s ⟨hq.1, hq.2.1⟩ ((resting_iff _).mpr ?_) (hq.2.2.1.2.1 h) (hw (by rw [h]; decide)) hm
  rw [show s.lcu.queue.countP QFrame.inAttempt = _ from hq.2.2.1.2.2, h]
  rfl

/-- Contending, sending and slots follow one another in one attempt (R41). -/
theorem enterTx_attempt (x : TxState) (s : State) (hx : attemptState x = true) (hs : attemptState s.lcu.tx = true) :
    KeptSound s (enterTx x s) := by
  obtain ⟨hi, hw, hsh⟩ := attemptState_busy hs
  obtain ⟨ki, kw, ksh⟩ := attemptState_busy hx
  refine ⟨enterTx_kept x s (by simp [hsh]), fun hq => ?_⟩
  obtain ⟨hm, hatw⟩ := working_facts s hq hsh
  obtain ⟨h1, h2, ⟨-, -, h3⟩, -, -⟩ := hq
  refine ⟨h1, h2, ⟨?_, fun h => absurd h kw, ?_⟩, ?_, ?_⟩
  · rintro (h | h)
    · exact absurd h ki
    · exact absurd (h.symm.trans ksh) (by simp)
  · rw [hs] at h3
    simpa [inAttemptCount, enterTx, hx] using h3
  · simp [hatw hi]
  · simp [hm]

/-- A transmitter that is WAITING on an idle line offers its first frame (R40). -/
theorem offerWaiting_keptSound (s : State) : KeptSound s (if s.lcu.tx = .waiting then offer s else s) := by
  split
  · rename_i h; exact offer_keptSound s h
  · exact .refl s

/-- An attempt left in its slots ends (R31). -/
theorem endSlots_keptSound (e : AttemptEnd) (s : State) :
    KeptSound s (if s.lcu.tx = .slots then endAttempt e s else s) := by
  split
  · rename_i h; exact endAttempt_keptSound e s (by rw [h]; rfl)
  · exact .refl s

theorem reachIdle_keptSound (s : State) : KeptSound s (reachIdle s) :=
  KeptSound.trans (t := s.withLif { s.lif with idleSeen := true, run := false }) (line_keptSound rfl rfl rfl rfl rfl)
    ((endSlots_keptSound .objected _).trans (offerWaiting_keptSound _))

theorem breakAttempt_keptSound (e : AttemptEnd) (s : State) (h : attemptState s.lcu.tx = true) :
    KeptSound s (breakAttempt e s) :=
  KeptSound.trans (t := s.withLcu { s.lcu with domFrame := retag e s }) (line_keptSound rfl rfl rfl rfl rfl)
    (endAttempt_keptSound e _ h)

theorem loseArbitration_keptSound (cell : Nat) (s : State) (h : canLose cell s = true) :
    KeptSound s (loseArbitration cell s) := by
  have hx : s.lcu.tx = .contending := by simp [canLose] at h; exact h.1.1
  unfold loseArbitration
  exact (line_keptSound (by simp) (by simp) (by simp) (by simp) (by simp)).trans
    (breakAttempt_keptSound _ _ (by simp [hx, attemptState]))

theorem winArbitration_keptSound (s : State) (h : (s.lcu.tx == .contending) = true) : KeptSound s (winArbitration s) := by
  have hx : s.lcu.tx = .contending := by simpa using h
  exact (line_keptSound (by simp) (by simp) (by simp) (by simp) (by simp)).trans
    (enterTx_attempt .sending _ rfl (by simp [hx, attemptState]))

theorem leaveFrame_keptSound (s : State) : KeptSound s (leaveFrame s) := line_keptSound rfl rfl rfl rfl rfl

theorem mismatch_keptSound (cell : Nat) (r : CellReading) (s : State) (h : mismatches cell r s = true) :
    KeptSound s (mismatch cell r s) := by
  have hx : attemptState s.lcu.tx = true := by
    unfold mismatches at h
    split at h
    · cases h
    · simp only [Bool.and_eq_true, Bool.or_eq_true, beq_iff_eq] at h
      rcases h.2 with h | h
      · rw [h.1.1]; rfl
      · rw [h.1]; rfl
  have h1 : KeptSound s
      (breakAttempt .mismatch (stopDriving (cleanCells ((sentBits s).take cell) ++ [r]) s)) :=
    (line_keptSound (by simp) (by simp) (by simp) (by simp) (by simp)).trans
      (breakAttempt_keptSound _ _ (by simpa using hx))
  unfold mismatch
  dsimp only
  split
  · exact h1.trans (leaveFrame_keptSound _)
  · exact h1

theorem reachSlots_keptSound (s : State) (h : (s.lcu.tx == .sending) = true) : KeptSound s (reachSlots s) := by
  have hx : s.lcu.tx = .sending := by simpa using h
  exact (line_keptSound (by simp) (by simp) (by simp) (by simp) (by simp)).trans
    (enterTx_attempt .slots _ rfl (by simp [hx, attemptState]))

theorem discard_keptSound (a o : CellReading) (s : State) : KeptSound s (discard a o s) := by
  unfold discard
  split
  · rename_i h _
    have hx : s.lcu.tx = .slots := by simpa [inSlots] using h
    exact (frameEnd_keptSound s).trans (endAttempt_keptSound _ _ (by simp [frameEnd, hx, attemptState]))
  · exact frameEnd_keptSound s

theorem lineDominant_keptSound (ns : Nat) (s : State) : KeptSound s (lineDominant ns s) :=
  ⟨⟨rfl, rfl, rfl, fun _ => rfl, BitVec.and_self, id, id, id⟩, id⟩

theorem lineRecessive_keptSound (ns : Nat) (s : State) : KeptSound s (lineRecessive ns s) :=
  ⟨⟨rfl, rfl, rfl, fun _ => rfl, BitVec.and_self, id, id, id⟩, id⟩

/-! ### Stuck line and recovery (R44 to R53) -/

/-- From a transmitter that is not shut, where the transmitter stands meanwhile is open. -/
theorem Kept.moveTx {s t : State} (h : Kept s t) (hs : s.lcu.tx.shut = false) (x : TxState) :
    Kept s (t.withLcu { t.lcu with tx := x }) :=
  ⟨h.identity, h.atWork, h.muted, by simp [hs], h.flags, h.history, h.log, h.round⟩

/-- The fault log holds four records at most (R52). -/
theorem appendRecord_length (r : FaultRec) (log : List FaultRec) (h : log.length ≤ Config.faultLogSize) :
    (appendRecord r log).length ≤ Config.faultLogSize := by
  unfold appendRecord
  split
  · simp; omega
  · simp; exact h

theorem writeRecord_kept (cause : FaultCause) (frame : Option (Nat × Nat)) (s : State) :
    Kept s (writeRecord cause frame s) :=
  ⟨rfl, rfl, rfl, fun _ => rfl, BitVec.and_self, id, appendRecord_length _ _, id⟩

@[simp] theorem escalateNewest_length (log : List FaultRec) : (escalateNewest log).length = log.length := by
  induction log with
  | nil => rfl
  | cons r rs ih => unfold escalateNewest; split <;> simp [ih]

theorem escalate_kept (s : State) : Kept s (escalate s) :=
  ⟨rfl, rfl, rfl, fun _ => rfl, BitVec.and_self, id, by simp [escalate], id⟩

/-- HALTED after a record, from a transmitter that was not shut at the step's beginning (R47, R48). -/
theorem halt_keptSound (cause : FaultCause) (frame : Option (Nat × Nat)) {s t : State} (h : Kept s t)
    (hs : s.lcu.tx.shut = false) (hw : s.suu.startUp.atWork = true) :
    KeptSound s (enterHalted (escalate (writeRecord cause frame t))) := by
  have hk : Kept s (escalate (writeRecord cause frame (t.withLcu { t.lcu with tx := .idle }))) :=
    ((h.moveTx hs .idle).trans (writeRecord_kept _ _ _)).trans (escalate_kept _)
  obtain ⟨h1, h2⟩ := enterHalted_keptSound
    (escalate (writeRecord cause frame (t.withLcu { t.lcu with tx := .idle }))) rfl
  exact ⟨hk.trans h1, fun _ => h2 (by rw [hk.atWork]; exact hw)⟩

/-- RECOVERING with a sound queue at rest (R44). -/
theorem enterRecovering_keptSound {s t : State} (h : Kept s t) (hs : s.lcu.tx.shut = false)
    (hw : s.suu.startUp.atWork = true)
    (hq : QueueSound s → SoundQueue s.suu.identity.role t.lcu.queue ∧ Resting t.lcu.queue) :
    KeptSound s (enterRecovering t) := by
  have hk : Kept s (enterRecovering (t.withLcu { t.lcu with tx := .idle })) :=
    (h.moveTx hs .idle).trans
      ((enterTx_kept .recovering _ (by simp [TxState.shut])).trans
        ⟨rfl, rfl, rfl, fun _ => rfl, BitVec.and_self, id, id, id⟩)
  refine ⟨hk, fun hsnd => ?_⟩
  obtain ⟨h1, h2⟩ := hq hsnd
  obtain ⟨hm, -⟩ := working_facts s hsnd hs
  have hid : (enterRecovering t).suu = t.suu := rfl
  refine ⟨h1.1, ?_, ⟨?_, ?_, ?_⟩, ?_, ?_⟩
  · rw [hid, h.identity]; exact h1.2
  · simp [enterRecovering, enterTx, TxState.shut]
  · simp [enterRecovering, enterTx]
  · simp [enterRecovering, enterTx, inAttemptCount, attemptState, (resting_iff _).mp h2]
  · rw [hid, h.atWork, hw]; simp
  · rw [hid, h.muted, hm]; simp

theorem faultAtController_keptSound (s : State) (hw : s.suu.startUp.atWork = true) :
    KeptSound s (faultAtController s) := by
  unfold faultAtController
  split
  · exact raise_keptSound _ s
  · rename_i hx
    have hs : s.lcu.tx.shut = false := by simpa using hx
    have hk := (resolve_kept .lineFault s).trans (raise_keptSound .lineFault _).toKept
    dsimp only
    split
    · exact halt_keptSound _ _ hk hs hw
    · refine enterRecovering_keptSound (hk.trans (writeRecord_kept _ _ _)) hs hw fun hq => ?_
      obtain ⟨h1, h2, -⟩ := resolve_sound .lineFault s hq
      exact ⟨h1, h2⟩

theorem lineFault_keptSound (s : State) (hw : s.suu.startUp.atWork = true) :
    KeptSound s (faultAtController (faultAtLine s)) :=
  KeptSound.trans (t := faultAtLine s) (line_keptSound rfl rfl rfl rfl rfl) (faultAtController_keptSound _ hw)

theorem leaveRecovering_keptSound (s : State) (h : s.lcu.tx = .recovering) : KeptSound s (leaveRecovering s) := by
  have h1 : KeptSound s (settleTx (s.withLcu
      { s.lcu with recoveryDeadline := .off, recoveryQuiet := .off, faultMemory := .running Config.faultMemoryUs })) := by
    have hk : Kept s (s.withLcu
        { s.lcu with recoveryDeadline := .off, recoveryQuiet := .off, faultMemory := .running Config.faultMemoryUs }) :=
      ⟨rfl, rfl, rfl, fun _ => rfl, BitVec.and_self, id, id, id⟩
    have hx : s.lcu.tx.shut = false := by rw [h]; rfl
    refine ⟨hk.trans (settleTx_kept _ hx), fun hq => ?_⟩
    obtain ⟨hm, hw⟩ := working_facts s hq hx
    refine settleTx_sound _ ⟨hq.1, hq.2.1⟩ ((resting_iff _).mpr ?_) (hw (by rw [h]; decide)) hm
    exact (show s.lcu.queue.countP QFrame.inAttempt = _ from hq.2.2.1.2.2).trans (by rw [h]; rfl)
  exact h1.trans (offerWaiting_keptSound _)

/-- The deadline of a recovery halts a transmitter at work; in a sound state one RECOVERING is at work (R41, R47). -/
theorem recoveryFailed_carries (s : State) (h : s.lcu.tx = .recovering) : Carries s (recoveryFailed s) := by
  have hx : s.lcu.tx.shut = false := by rw [h]; rfl
  obtain ⟨hk, hsnd⟩ := enterHalted_keptSound
    (escalate (writeRecord .recoveryTimeout none s)) hx
  have hk' := ((writeRecord_kept .recoveryTimeout none s).trans (escalate_kept _)).trans hk
  refine ⟨hk'.identity, fun hm => hk'.muted.trans hm, hk'.shut, hk'.flags, hk'.history, hk'.log, hk'.round, fun hq => ?_⟩
  obtain ⟨-, hw⟩ := working_facts s hq hx
  exact hsnd (hw (by rw [h]; decide))

end Sys2Proof.Machine

namespace Sys2Proof.Machine

open Sys2Proof.Safety

/-! ### Start-up, timers, desk inputs (R10, R55 to R86, R57 to R71) -/

theorem endJoinWait_keptSound (s : State) : KeptSound s (endJoinWait s) := by
  have h : KeptSound s (s.withSuu { s.suu with joinWait := .off }) :=
    ⟨⟨rfl, rfl, rfl, fun _ => rfl, BitVec.and_self, id, id, id⟩, id⟩
  unfold endJoinWait
  dsimp only
  split
  · exact h.trans (enterJoined_keptSound _)
  · exact h.trans (handOver_keptSound _ _ _)

/-- The clock counts up to its greatest count (R55). -/
theorem tick_keptSound (s : State) (h : s.rck.count < Config.clockMax) : KeptSound s (tick s) :=
  ⟨⟨rfl, rfl, rfl, fun _ => rfl, BitVec.and_self, id, id, fun ⟨_, hr⟩ => ⟨h, hr⟩⟩, id⟩

/-- Saturation takes a READING round to LIVE with its turn number at 0 (R57, R81). -/
theorem saturateClock_keptSound (s : State) : KeptSound s (saturateClock s) := by
  unfold saturateClock
  dsimp only
  split
  · refine (stopClock_keptSound s).trans (KeptSound.trans ?_ (advance_keptSound _))
    refine (withRng_keptSound { s.rng with saturated := true, closed := true } (s.withRck { s.rck with running := false })
      id).trans ?_
    split
    · rename_i hp
      refine setLive_keptSound _ ?_
      rintro ⟨-, -, h3, -⟩
      rw [h3 (.inr hp)]
      decide
    · exact .refl _
  · exact stopClock_keptSound s

theorem answerStep_keptSound (s : State) : KeptSound s (answerStep s) :=
  withRng_keptSound _ s fun ⟨h1, h2, h3, h4, h5, h6⟩ => ⟨h1, h2, h3, h4, (Nat.sub_le _ _).trans h5, h6⟩

theorem answerExpiry_keptSound (s : State) : KeptSound s (answerExpiry s) := by
  have h : KeptSound s (s.withRng { s.rng with answerRunning := false, phase := .held }) :=
    (setPhase_keptSound .held s (by decide) (by decide) (by decide)).trans (answerRunning_kept false _)
  unfold answerExpiry
  dsimp only
  split
  · exact h.trans (handTimeout_keptSound _)
  · exact h

theorem setInput_keptSound (d : DeskInput) (i : Input) (s : State) : KeptSound s (setInput d i s) :=
  .of_same rfl rfl rfl rfl BitVec.and_self

theorem queueClaim_keptSound (stamp : Nat) (s : State) : KeptSound s (queueClaim stamp s) := by
  unfold queueClaim
  dsimp only
  split
  · exact (setRecord_keptSound _ s).trans (handOver_keptSound _ _ _)
  · exact (handOver_keptSound _ _ s).trans (claimDropped_keptSound _)
  all_goals exact .refl s

theorem queueChoice_keptSound (key stamp : Nat) (s : State) : KeptSound s (queueChoice key stamp s) := by
  unfold queueChoice
  dsimp only
  split
  · exact (setRecord_keptSound _ s).trans (handOver_keptSound _ _ _)
  · exact (setRecord_keptSound _ s).trans (handOver_keptSound _ _ _)
  · exact (handOver_keptSound _ _ s).trans (choiceDropped_keptSound _)
  all_goals exact .refl s

theorem queuePass_keptSound (turn : Nat) (s : State) : KeptSound s (queuePass turn s) := by
  unfold queuePass
  dsimp only
  split
  · exact handOver_keptSound _ _ s
  · exact (handOver_keptSound _ _ s).trans (reportDrop_keptSound _)
  all_goals exact .refl s

theorem judgeBuzz_keptSound (time : Nat) (s : State) : KeptSound s (judgeBuzz time s) := by
  have h : KeptSound s (startHold s) := .of_same rfl rfl rfl rfl BitVec.and_self
  unfold judgeBuzz
  dsimp only
  split
  · exact h
  split
  · exact h.trans (setRecord_keptSound _ _)
  split
  · exact h.trans (queueClaim_keptSound _ _)
  · exact h

theorem judgeKey_keptSound (key time : Nat) (s : State) : KeptSound s (judgeKey key time s) := by
  unfold judgeKey
  split
  · exact .refl s
  split
  · exact setRecord_keptSound _ s
  split
  · exact queueChoice_keptSound _ _ s
  · exact .refl s

theorem judge_keptSound (d : DeskInput) (time : Nat) (s : State) : KeptSound s (judge d time s) := by
  unfold judge
  split
  · exact .refl s
  · split
    · exact judgeBuzz_keptSound time s
    · exact judgeKey_keptSound _ time s
    all_goals exact .refl s

theorem acceptPress_keptSound (d : DeskInput) (capture : Nat) (s : State) : KeptSound s (acceptPress d capture s) := by
  unfold acceptPress
  dsimp only
  split
  · exact (setInput_keptSound d _ s).trans (judge_keptSound d capture _)
  · exact setInput_keptSound d _ s

theorem endHold_keptSound (s : State) : KeptSound s (endHold s) := .of_same rfl rfl rfl rfl BitVec.and_self

theorem acceptRelease_keptSound (d : DeskInput) (s : State) : KeptSound s (acceptRelease d s) := by
  unfold acceptRelease
  dsimp only
  split
  · exact (setInput_keptSound d _ s).trans (endHold_keptSound _)
  · exact setInput_keptSound d _ s

theorem holdEnd_keptSound (s : State) : KeptSound s (holdEnd s) := by
  unfold holdEnd
  split
  · exact (endHold_keptSound s).trans (queuePass_keptSound _ _)
  · exact endHold_keptSound s

theorem endRoll_keptSound (s : State) : KeptSound s (endRoll s) :=
  .of_same rfl rfl rfl rfl (flags_or _ _)

/-! ### The command port (R159 to R204) -/

theorem answer_keptSound (code : Byte) (rc : ReplyCode) (body : List Byte) (s : State) :
    KeptSound s (answer code rc body s) := .of_same rfl rfl rfl rfl BitVec.and_self

theorem storeRead_keptSound (row : Byte) (s : State) : KeptSound s (storeRead row s) := by
  unfold storeRead
  split
  · exact answer_keptSound _ _ _ s
  · split <;> exact answer_keptSound _ _ _ s

theorem storeWrite_keptSound (row : Byte) (value : Half) (setup : Bool) (s : State) :
    KeptSound s (storeWrite row value setup s) := by
  unfold storeWrite
  split
  · exact answer_keptSound _ _ _ s
  split
  · exact answer_keptSound _ _ _ s
  split
  · exact answer_keptSound _ _ _ s
  · exact .of_same rfl rfl rfl rfl BitVec.and_self

theorem handCommand_keptSound (code : Byte) (c : Content) (body : List Byte) (f : State → State) (s : State)
    (hf : ∀ x, KeptSound x (f x)) : KeptSound s (handCommand code c body f s) := by
  unfold handCommand
  split
  · exact answer_keptSound _ _ _ s
  · exact ((handOver_keptSound c .cnf s).trans (hf _)).trans (answer_keptSound _ _ _ _)

theorem openRound_keptSound (block : OpenBlock) (s : State) : KeptSound s (openRound block s) := by
  unfold openRound
  split
  · exact handCommand_keptSound _ _ _ _ s fun x => .of_same rfl rfl rfl rfl BitVec.and_self
  · exact answer_keptSound _ _ _ s

theorem closeRound_keptSound (s : State) : KeptSound s (closeRound s) := by
  unfold closeRound
  split
  · exact handCommand_keptSound _ _ _ _ s .refl
  · exact answer_keptSound _ _ _ s

theorem revealRound_keptSound (key : Byte) (s : State) : KeptSound s (revealRound key s) := by
  unfold revealRound
  split
  · exact answer_keptSound _ _ _ s
  split
  · exact handCommand_keptSound _ _ _ _ s .refl
  · exact answer_keptSound _ _ _ s

theorem hostVerdictHanded_keptSound (a : Answer) (turn : Nat) (s : State) : KeptSound s (hostVerdictHanded a turn s) := by
  have h : KeptSound s
      ((s.withCnf { s.cnf with verdictPending := some turn, verdictKind := .host }).withRng
        { s.rng with answerRunning := false }) :=
    ⟨⟨rfl, rfl, rfl, fun _ => rfl, BitVec.and_self, id, id, id⟩, id⟩
  unfold hostVerdictHanded
  split
  · exact h
  · exact h
  all_goals exact .refl s

theorem hostVerdict_keptSound (outcome expected : Byte) (s : State) : KeptSound s (hostVerdict outcome expected s) := by
  unfold hostVerdict
  split
  · exact answer_keptSound _ _ _ s
  · exact answer_keptSound _ _ _ s
  · exact handCommand_keptSound _ _ _ _ s (hostVerdictHanded_keptSound _ _)

theorem correct_keptSound (code : Byte) (team : Nat) (body : List Byte) (s : State) :
    KeptSound s (correct code team body s) :=
  (requestPage_keptSound _ s).trans (answer_keptSound _ _ _ _)

theorem setTotal_keptSound (team : Byte) (value : Half) (s : State) : KeptSound s (setTotal team value s) := by
  unfold setTotal
  split
  · exact (commitScores_keptSound _ s).trans (correct_keptSound _ _ _ _)
  · exact answer_keptSound _ _ _ s

theorem adjust_keptSound (team : Byte) (delta : Half) (s : State) : KeptSound s (adjust team delta s) := by
  unfold adjust
  split
  · exact (commitScores_keptSound _ s).trans (correct_keptSound _ _ _ _)
  · exact answer_keptSound _ _ _ s

theorem sendTally_keptSound (s : State) : KeptSound s (sendTally s) :=
  (requestAllPages_keptSound s).trans (answer_keptSound _ _ _ _)

theorem rollCall_keptSound (window : Byte) (s : State) : KeptSound s (rollCall window s) := by
  unfold rollCall
  split
  · exact answer_keptSound _ _ _ s
  · exact handCommand_keptSound _ _ _ _ s fun x => .of_same rfl rfl rfl rfl BitVec.and_self

/-- A command carries over what its operation does. -/
theorem command_carries {f : State → State} {s t : State} (h : command f s = .next t) (hf : ∀ x, KeptSound x (f x)) :
    Carries s t := when_carries h fun _ => (hf s).carries

theorem consoleCommand_carries {code : Byte} {f : State → State} {s t : State} (h : consoleCommand code f s = .next t)
    (hf : ∀ x, KeptSound x (f x)) : Carries s t := by
  refine command_carries h fun x => ?_
  split
  · exact hf x
  · exact answer_keptSound _ _ _ x

/-- A command that is answered and nothing else. -/
theorem answered_carries {code : Byte} {rc : ReplyCode} {body : State → List Byte} {s t : State}
    (h : command (fun s => answer code rc (body s) s) s = .next t) : Carries s t :=
  command_carries h fun x => answer_keptSound _ _ _ x

/-! ### All commands -/

/-- Every command but the resets, the end of LOADING and CLEAR_EVENTS carries over. -/
theorem exec_carries (c : Instr) (s t : State) (hr : isReset c = false) (hl : c ≠ .loadingReadEnd)
    (he : ∀ n, c ≠ .clearEvents n) (h : exec c s = .next t) : Carries s t := by
  cases c with
  | powerOnReset | resetN | restart => cases hr
  | loadingReadEnd => exact absurd rfl hl
  | clearEvents n => exact absurd rfl (he n)
  | joiningIdleWaitEnd => exact when_carries h fun _ => (endJoinWait_keptSound s).carries
  | storeWriteEnd =>
    unfold exec execStoreWriteEnd at h
    refine when_carries h fun _ => KeptSound.carries ?_
    exact .of_same rfl rfl rfl rfl (flags_or _ _)
  | lineIdle => exact when_carries h fun _ => (reachIdle_keptSound s).carries
  | arbitrationLost cell => exact when_carries h fun hg => (loseArbitration_keptSound cell s hg).carries
  | arbitrationWon => exact when_carries h fun hg => (winArbitration_keptSound s hg).carries
  | bitMismatch cell pulse => exact when_carries h fun hg => (mismatch_keptSound cell _ s hg).carries
  | slotsReached => exact when_carries h fun hg => (reachSlots_keptSound s hg).carries
  | frameDiscarded cells ack objection => exact when_carries h fun _ => (discard_keptSound _ _ s).carries
  | lineFault =>
    unfold exec execLineFault at h
    refine when_carries h fun hg => (lineFault_keptSound s ?_).carries
    simp only [Bool.and_eq_true] at hg
    exact hg.1.1
  | recoveryQuietEnd =>
    refine when_carries h fun hg => (leaveRecovering_keptSound s ?_).carries
    simp only [Bool.and_eq_true, beq_iff_eq] at hg
    exact hg.1
  | recoveryDeadline =>
    refine when_carries h fun hg => recoveryFailed_carries s ?_
    simp only [Bool.and_eq_true, beq_iff_eq] at hg
    exact hg.1
  | faultMemoryExpiry =>
    unfold exec execFaultMemoryExpiry at h
    refine when_carries h fun _ => KeptSound.carries ?_
    exact ⟨⟨rfl, rfl, rfl, fun _ => rfl, BitVec.and_self, id, id, id⟩, id⟩
  | openTaken desk round block => exact takes_carries h (openEffect_keptSound round block)
  | closeTaken desk round point => exact takes_carries h (closeEffect_keptSound round point)
  | verdictTaken desk round turn team outcome check =>
    exact takes_carries h (verdictEffect_keptSound _ round turn team outcome check)
  | passTaken desk round turn team => exact takes_carries h (passEffect_keptSound round turn team)
  | claimTaken desk round stamp team => exact takes_carries h (claimEffect_keptSound desk round stamp team)
  | choiceTaken desk round stamp key team => exact takes_carries h (choiceEffect_keptSound desk round stamp key team)
  | tallyTaken desk round page a b c d => exact takes_carries h (tallyEffect_keptSound desk page _)
  | revealTaken desk round key => exact takes_carries h (revealEffect_keptSound round key)
  | rollTaken desk round id window => exact takes_carries h (rollEffect_keptSound id window)
  | presentTaken desk round role team id flags =>
    exact takes_carries h (presentEffect_keptSound desk role team id flags)
  | helloTaken desk round role team tag => exact takes_carries h (helloEffect_keptSound desk role team tag)
  | roundClockTick =>
    refine when_carries h fun hg => (tick_keptSound s ?_).carries
    simp only [Bool.and_eq_true, decide_eq_true_eq] at hg
    exact hg.2
  | armReached => exact when_carries h fun _ => (reachArm_keptSound s).carries
  | windowEnd =>
    exact when_carries h fun _ =>
      ((withRng_keptSound { s.rng with closed := true } s id).trans (advance_keptSound _)).carries
  | roundClockSaturation => exact when_carries h fun _ => (saturateClock_keptSound s).carries
  | settleDeadline => exact when_carries h fun hg => (grant_keptSound s hg).carries
  | settleOut => exact when_carries h fun _ => (enterEnded_keptSound s).carries
  | answerClockStep => exact when_carries h fun _ => (answerStep_keptSound s).carries
  | answerClockExpiry => exact when_carries h fun _ => (answerExpiry_keptSound s).carries
  | inputFallingEdge d => exact when_carries h fun _ => (setInput_keptSound d _ s).carries
  | inputRisingEdge d => exact when_carries h fun _ => (setInput_keptSound d _ s).carries
  | pressAccepted d => exact when_carries h fun _ => (acceptPress_keptSound d _ s).carries
  | releaseAccepted d => exact when_carries h fun _ => (acceptRelease_keptSound d s).carries
  | passHoldEnd => exact when_carries h fun _ => (holdEnd_keptSound s).carries
  | jumpLockEnd => exact when_carries h fun _ => (KeptSound.refl s).carries
  | blinkBaseHalfPeriod =>
    cases h
    have hb : KeptSound s (blinkOn s) := .of_same rfl rfl rfl rfl BitVec.and_self
    exact (hb.trans (refresh_keptSound _)).carries
  | droppedFrameFlashEnd | displayUpdateEnd | transferStart | transferEndNoCommand =>
    simp only [exec, execDroppedFrameFlashEnd, execDisplayUpdateEnd, execTransferStart, execTransferEndNoCommand] at h
    refine when_carries h fun _ => KeptSound.carries ?_
    exact .of_same rfl rfl rfl rfl BitVec.and_self
  | rollWindowExpiry => exact when_carries h fun _ => (endRoll_keptSound s).carries
  | unknownCommand code args => exact when_carries h fun _ => (answer_keptSound _ _ _ s).carries
  | nop | setEventMask =>
    simp only [exec, execNop, execSetEventMask] at h
    refine command_carries h fun x => ?_
    exact .of_same rfl rfl rfl rfl BitVec.and_self
  | clearFaults =>
    unfold exec execClearFaults at h
    refine command_carries h fun x => ?_
    exact ⟨⟨rfl, rfl, rfl, fun _ => rfl, BitVec.and_self, id, fun _ => Nat.zero_le _, id⟩, id⟩
  | status => unfold exec execStatus at h; exact answered_carries h
  | readScores => unfold exec execReadScores at h; exact answered_carries h
  | readClaims => unfold exec execReadClaims at h; exact answered_carries h
  | readChoices => unfold exec execReadChoices at h; exact answered_carries h
  | readPresence => unfold exec execReadPresence at h; exact answered_carries h
  | readRollReport => unfold exec execReadRollReport at h; exact answered_carries h
  | readFaults => unfold exec execReadFaults at h; exact answered_carries h
  | readEvents => unfold exec execReadEvents at h; exact answered_carries h
  | storeRead row => exact command_carries h (storeRead_keptSound row)
  | storeWrite row value setup => exact command_carries h (storeWrite_keptSound row value setup)
  | openRound block => exact consoleCommand_carries h (openRound_keptSound block)
  | closeRound => exact consoleCommand_carries h closeRound_keptSound
  | verdictCommand outcome expected => exact consoleCommand_carries h (hostVerdict_keptSound outcome expected)
  | revealCommand key => exact consoleCommand_carries h (revealRound_keptSound key)
  | setTotal team value => exact consoleCommand_carries h (setTotal_keptSound team value)
  | adjust team delta => exact consoleCommand_carries h (adjust_keptSound team delta)
  | sendTally => exact consoleCommand_carries h sendTally_keptSound
  | rollCall window => exact consoleCommand_carries h (rollCall_keptSound window)
  | clearRollReport =>
    unfold exec execClearRollReport at h
    refine consoleCommand_carries h fun x => ?_
    exact .of_same rfl rfl rfl rfl BitVec.and_self
  | lineLevelChange change =>
    cases change with
    | toDominant ns => exact when_carries h fun _ => (lineDominant_keptSound ns s).carries
    | toRecessive ns => exact when_carries h fun _ => (lineRecessive_keptSound ns s).carries
  | startMarkRecognized =>
    refine when_carries h fun _ => KeptSound.carries ?_
    exact line_keptSound rfl rfl rfl rfl rfl
  | objectionRunBegun cells => exact when_carries h fun _ => (leaveFrame_keptSound s).carries

end Sys2Proof.Machine

namespace Sys2Proof.Machine

open Sys2Proof.Safety

/-! ### The commands apart: resets, the end of LOADING, CLEAR_EVENTS -/

/-- A reset places every block, or a RESTART finds no transfer and does nothing (R15, R196). -/
theorem exec_reset (c : Instr) (s t : State) (hr : isReset c = true) (h : exec c s = .next t) :
    t = s ∨ ∃ cause role1 role0 csN, t = resetState cause role1 role0 csN s := by
  cases c with
  | powerOnReset a b => cases h; exact .inr ⟨_, _, _, _, rfl⟩
  | resetN a b => cases h; exact .inr ⟨_, _, _, _, rfl⟩
  | restart a b =>
    change execRestart a b s = .next t at h
    unfold execRestart at h
    split at h <;> cases h
    · exact .inr ⟨_, _, _, _, rfl⟩
    · exact .inl rfl
  | _ => simp [isReset] at hr

/-- CLEAR_EVENTS touches the port alone (R201). -/
theorem exec_clearEvents (n : Half) (s t : State) (h : exec (.clearEvents n) s = .next t) :
    t.suu = s.suu ∧ t.sto = s.sto ∧ t.lcu = s.lcu ∧ t.rck = s.rck ∧ t.rng = s.rng ∧ t.scu = s.scu := by
  change execClearEvents n s = .next t at h
  unfold execClearEvents command at h
  rcases when_next (shifting s) _ s with hw | hw <;> rw [hw] at h <;> cases h <;> simp

/-- The end of LOADING leaves another state or none, its blocks by the identity check (R3, R5, R10). -/
theorem exec_loadingReadEnd (s t : State) (h : exec .loadingReadEnd s = .next t) :
    t = s ∨ s.suu.startUp = .loading ∧ t = refresh (endLoading s) := by
  change execLoadingReadEnd s = .next t at h
  unfold execLoadingReadEnd at h
  cases hb : s.suu.startUp == .loading with
  | false => rw [when_not_occurs _ _ hb] at h; cases h; exact .inl rfl
  | true => rw [when_occurs _ _ hb] at h; cases h; exact .inr ⟨by simpa using hb, rfl⟩

/-- The end of LOADING fills the identity record and leaves transmitter, clock and round alone (R3, R10). -/
theorem endLoading_frame (s : State) :
    (endLoading s).lcu = s.lcu ∧ (endLoading s).rck = s.rck ∧ (endLoading s).rng = s.rng ∧ (endLoading s).cmp = s.cmp ∧
      (endLoading s).suu.identity = fillIdentity s ∧ (endLoading s).suu.muted = s.suu.muted := by
  unfold endLoading acceptIdentity
  dsimp only
  (repeat' split) <;> simp

/-! ### The queue stays sound -/

/-- An empty queue under an IDLE transmitter of a station that is not muted is sound. -/
theorem queueSound_idle (s : State) (hx : s.lcu.tx = .idle) (hq : s.lcu.queue = []) (hm : s.suu.muted = false) :
    QueueSound s := by
  refine ⟨by simp [hq], by simp [hq], ⟨fun _ => hq, by simp [hx], ?_⟩, fun _ => hx, by simp [hm]⟩
  rw [inAttemptCount, hq, hx]
  rfl

theorem exec_queueSound (c : Instr) (s t : State) (hq : QueueSound s) (h : exec c s = .next t) : QueueSound t := by
  by_cases hr : isReset c = true
  · rcases exec_reset c s t hr h with rfl | ⟨_, _, _, _, rfl⟩
    · exact hq
    · exact queueSound_idle _ rfl rfl rfl
  by_cases hl : c = .loadingReadEnd
  · subst hl
    rcases exec_loadingReadEnd s t h with rfl | ⟨hld, rfl⟩
    · exact hq
    · obtain ⟨h1, -, -, -, -, h6⟩ := endLoading_frame s
      have hx : s.lcu.tx = .idle := hq.2.2.2.1 (by rw [hld]; rfl)
      have hqe : s.lcu.queue = [] := hq.2.2.1.1 (.inl hx)
      refine queueSound_idle _ (by simp [h1, hx]) (by simp [h1, hqe]) ?_
      rw [refresh_suu, h6]
      cases hm : s.suu.muted with
      | false => rfl
      | true => have := hq.2.2.2.2 hm; rw [hx] at this; cases this
  by_cases he : ∃ n, c = .clearEvents n
  · obtain ⟨n, rfl⟩ := he
    obtain ⟨h1, -, h2, -, -, -⟩ := exec_clearEvents n s t h
    exact queueSound_of_same (by rw [h2]) (by rw [h2]) (by rw [h1]) (by rw [h1]) (by rw [h1]) hq
  · exact (exec_carries c s t (by simpa using hr) hl (fun n hn => he ⟨n, hn⟩) h).queue hq

/-- A step runs the front command, or lets an edge of the line grow older (log 5, log 10). -/
theorem step_cases (s t : State) (h : step s = .next t) :
    t = edgeAges s ∨ ∃ c rest, exec c (s.withPending rest) = .next t := by
  unfold step at h
  split at h
  · cases h; exact .inl rfl
  · exact .inr ⟨_, _, h⟩

/-- Settles O6, by what each command carries over of the queue. -/
theorem queueStaysSound : Obligations.QueueStaysSound := by
  intro s t hq h
  rcases step_cases s t h with rfl | ⟨c, rest, hc⟩
  · exact hq
  · exact exec_queueSound c (s.withPending rest) t hq hc

/-! ### The bounds -/

/-- The bounds of an identity record (R2, R4). -/
def IdentityBounded (x : Identity) : Prop :=
  x.filterMs ∈ [1, 2, 4, 8] ∧ 5 ≤ x.passHold ∧ x.passHold ≤ 25 ∧ x.desk < 64 ∧ x.team < 32

theorem boundsSound_iff (s : State) :
    BoundsSound s ↔
      RoundBounded s ∧ s.lcu.log.length ≤ Config.faultLogSize ∧ s.lcu.history.length = 4 ∧
        IdentityBounded s.suu.identity := by
  unfold BoundsSound RoundBounded IdentityBounded
  tauto

/-- The desk number is the upper six bits of row 0. -/
theorem rowDesk_eq (r : Half) : rowDesk r = r.toNat / 1024 := by
  simp [rowDesk, Nat.shiftRight_eq_div_pow]

/-- The team is the lower five bits of row 0. -/
theorem rowTeam_eq (r : Half) : rowTeam r = r.toNat % 32 := by
  rw [rowTeam, BitVec.toNat_and]
  exact Nat.and_two_pow_sub_one_eq_mod r.toNat 5

/-- The filter time is 1 ms doubled by the lower two bits of row 1 (R4). -/
theorem rowFilterMs_eq (r : Half) : rowFilterMs r = 2 ^ (r.toNat % 4) := by
  rw [rowFilterMs, BitVec.toNat_and]
  exact congrArg (2 ^ ·) (Nat.and_two_pow_sub_one_eq_mod r.toNat 2)

/-- The pass-hold time is bits 12..8 of row 1, clamped (R4). -/
theorem rowPassHold_eq (r : Half) : rowPassHold r = max 5 (min 25 (r.toNat / 256 % 32)) := by
  rw [rowPassHold, clamp, BitVec.toNat_and, BitVec.toNat_ushiftRight, Nat.shiftRight_eq_div_pow]
  exact congrArg (fun n => max 5 (min 25 n)) (Nat.and_two_pow_sub_one_eq_mod (r.toNat / 256) 5)

/-- The rows give an identity within its bounds (R4). -/
theorem fillIdentity_bounded (s : State) : IdentityBounded (fillIdentity s) := by
  have hd := s.sto.row0.isLt
  refine ⟨?_, ?_, ?_, ?_, ?_⟩ <;> simp only [fillIdentity, rowFilterMs_eq, rowPassHold_eq, rowDesk_eq, rowTeam_eq]
  · have h4 : s.sto.row1.toNat % 4 < 4 := Nat.mod_lt _ (by decide)
    interval_cases s.sto.row1.toNat % 4 <;> simp
  · omega
  · omega
  · omega
  · split <;> omega

theorem exec_boundsSound (c : Instr) (s t : State) (hb : BoundsSound s) (h : exec c s = .next t) : BoundsSound t := by
  rw [boundsSound_iff] at hb ⊢
  obtain ⟨hround, hlog, hhist, hid⟩ := hb
  by_cases hr : isReset c = true
  · rcases exec_reset c s t hr h with rfl | ⟨_, _, _, _, rfl⟩
    · exact ⟨hround, hlog, hhist, hid⟩
    · unfold RoundBounded IdentityBounded
      simp [resetState, State.reset, Rng.reset, Rck.reset, Lcu.reset, Suu.reset, Identity.reset]
  by_cases hl : c = .loadingReadEnd
  · subst hl
    rcases exec_loadingReadEnd s t h with rfl | ⟨-, rfl⟩
    · exact ⟨hround, hlog, hhist, hid⟩
    · obtain ⟨h1, h2, h3, -, h5, -⟩ := endLoading_frame s
      refine ⟨?_, by simpa [h1] using hlog, by simpa [h1] using hhist, ?_⟩
      · simpa [RoundBounded, h2, h3] using hround
      · rw [refresh_suu, h5]; exact fillIdentity_bounded s
  by_cases he : ∃ n, c = .clearEvents n
  · obtain ⟨n, rfl⟩ := he
    obtain ⟨h1, -, h2, h3, h4, -⟩ := exec_clearEvents n s t h
    refine ⟨?_, by rwa [h2], by rwa [h2], by rwa [h1]⟩
    simpa [RoundBounded, h3, h4] using hround
  · have hc := exec_carries c s t (by simpa using hr) hl (fun n hn => he ⟨n, hn⟩) h
    exact ⟨hc.round hround, hc.log hlog, hc.history hhist, by rw [hc.identity]; exact hid⟩

/-- Settles O7, by what each command carries over of clock, round, history and log; the identity record is filled within its
bounds. -/
theorem boundsStaySound : Obligations.BoundsStaySound := by
  intro s t hb h
  rcases step_cases s t h with rfl | ⟨c, rest, hc⟩
  · exact hb
  · exact exec_boundsSound c (s.withPending rest) t hb hc

end Sys2Proof.Machine

namespace Sys2Proof.Machine

open Sys2Proof.Safety

/-! ### Store and figures (R9, R142) -/

/-- The store, and every team's total and counts, are left alone. -/
structure Untouched (s t : State) : Prop where
  sto : t.sto = s.sto
  figures : t.scu.records.map TeamRec.figures = s.scu.records.map TeamRec.figures

theorem Untouched.of_same {s t : State} (h : t.sto = s.sto) (k : t.scu = s.scu) : Untouched s t := ⟨h, by rw [k]⟩

theorem Untouched.refl (s : State) : Untouched s s := ⟨rfl, rfl⟩

theorem Untouched.trans {s t u : State} (h : Untouched s t) (k : Untouched t u) : Untouched s u :=
  ⟨k.sto.trans h.sto, k.figures.trans h.figures⟩

theorem when_untouched {b : Bool} {f : State → State} {s t : State} (h : when b f s = .next t)
    (hf : Untouched s (f s)) : Untouched s t := by
  rcases when_next b f s with hw | hw <;> rw [hw] at h <;> cases h
  · exact hf.trans (.of_same (by simp) (by simp))
  · exact .refl s

/-- Ranks and seats are no figures (R142, R155, R156). -/
theorem seatTeams_figures (teams : List Nat) (s : State) :
    (seatTeams teams s).scu.records.map TeamRec.figures = s.scu.records.map TeamRec.figures := by
  unfold seatTeams rankAll
  simp only [State.withScu_scu, List.map_map]
  apply List.ext_getElem <;> simp [TeamRec.figures]

theorem setEntry_untouched (d : Nat) (f : PresEntry → PresEntry) (s : State) : Untouched s (setEntry d f s) := by
  unfold setEntry
  dsimp only
  split
  · exact .of_same rfl rfl
  · exact ⟨by simp, seatTeams_figures _ _⟩

theorem markHeard_untouched (d r : Nat) (s : State) : Untouched s (markHeard d r s) :=
  (setEntry_untouched d _ s).trans (.of_same (raiseIf_sto _ _ _) (raiseIf_scu _ _ _))

theorem describe_untouched (d : Nat) (role team : Byte) (x : PresEntry → PresEntry) (s : State) :
    Untouched s (describe d role team x s) :=
  (setEntry_untouched d _ s).trans (.of_same (raiseIf_sto _ _ _) (raiseIf_scu _ _ _))

/-- A taking leaves store and figures alone where its owners do. -/
theorem takes_untouched {f : Frame} {eff : State → State} {s t : State} (h : takes f eff s = .next t)
    (he : ∀ x, Untouched x (eff x)) : Untouched s t := by
  refine when_untouched h ?_
  have hm : Untouched s (markHeard f.desk.toNat f.round.toNat (takenAtLine s)) :=
    (Untouched.of_same (by simp) (by simp)).trans (markHeard_untouched _ _ _)
  refine Untouched.trans ?_ (.of_same (checkDuplicate_sto _ _ _) (checkDuplicate_scu _ _ _))
  split
  · exact hm.trans (he _)
  · exact hm

/-- A taking leaves the store alone where its owners do. -/
theorem takes_sto {f : Frame} {eff : State → State} {s t : State} (h : takes f eff s = .next t)
    (he : ∀ x, (eff x).sto = x.sto) : t.sto = s.sto := by
  rcases when_next (canTake f s) (taking f eff) s with hw | hw <;> unfold takes at h <;> rw [hw] at h <;> cases h
  · unfold taking
    simp only [refresh_sto, checkDuplicate_sto]
    split <;> simp [he]
  · rfl

/-! ### What the owners leave of them -/

theorem openEffect_untouched (round : Byte) (b : OpenBlock) (s : State) : Untouched s (openEffect round b s) := by
  unfold openEffect reachArm
  dsimp only
  split <;> exact .of_same (by simp) (by simp)

theorem closeEffect_untouched (round : Byte) (point : Triple) (s : State) : Untouched s (closeEffect round point s) := by
  unfold closeEffect
  dsimp only
  (repeat' split) <;> exact .of_same (by simp) (by simp)

theorem passEffect_untouched (round turn team : Byte) (s : State) : Untouched s (passEffect round turn team s) := by
  unfold passEffect supersede
  (repeat' split) <;> exact .of_same (by simp) (by simp)

theorem claimEffect_untouched (desk : Desk) (round : Byte) (stamp : Triple) (team : Byte) (s : State) :
    Untouched s (claimEffect desk round stamp team s) := by
  unfold claimEffect claimAtDesk claimAtList
  dsimp only
  (repeat' split) <;> exact .of_same (by simp) (by simp)

theorem choiceEffect_untouched (desk : Desk) (round : Byte) (stamp : Triple) (key team : Byte) (s : State) :
    Untouched s (choiceEffect desk round stamp key team s) := by
  unfold choiceEffect choiceAtDesk choiceAtTable
  (repeat' split) <;> exact .of_same (by simp) (by simp)

theorem rollEffect_untouched (id window : Byte) (s : State) : Untouched s (rollEffect id window s) := by
  unfold rollEffect startPolling
  dsimp only
  (repeat' split) <;> exact .of_same (by simp) (by simp)

theorem presentEffect_untouched (desk : Desk) (role team id flags : Byte) (s : State) :
    Untouched s (presentEffect desk role team id flags s) := by
  refine (describe_untouched desk.toNat role team (presentExtra id flags) s).trans ?_
  unfold presentEffect addReply
  split <;> exact .of_same (by simp) (by simp)

theorem helloEffect_untouched (desk : Desk) (role team : Byte) (tag : Half) (s : State) :
    Untouched s (helloEffect desk role team tag s) := by
  refine (describe_untouched desk.toNat role team (fun e => { e with tag := tag }) s).trans ?_
  unfold helloEffect
  dsimp only
  split <;> exact .of_same (by simp) (by simp)

theorem verdictEffect_sto (own : Bool) (round turn team outcome : Byte) (check : Half) (s : State) :
    (verdictEffect own round turn team outcome check s).sto = s.sto := by
  unfold verdictEffect verdictAtConsole
  (repeat' split) <;> simp

theorem tallyEffect_sto (desk : Desk) (page : Byte) (totals : List Half) (s : State) :
    (tallyEffect desk page totals s).sto = s.sto := by
  unfold tallyEffect
  split <;> simp

theorem revealEffect_sto (round key : Byte) (s : State) : (revealEffect round key s).sto = s.sto := by
  unfold revealEffect
  dsimp only
  (repeat' split) <;> simp

/-! ### All commands -/

/-- A command that is answered leaves store and figures alone where its operation does. -/
theorem command_untouched {f : State → State} {s t : State} (h : command f s = .next t) (hf : Untouched s (f s)) :
    Untouched s t := when_untouched h hf

theorem consoleCommand_untouched {code : Byte} {f : State → State} {s t : State}
    (h : consoleCommand code f s = .next t) (hf : Untouched s (f s)) : Untouched s t := by
  refine command_untouched h ?_
  split
  · exact hf
  · exact .of_same (by simp) (by simp)

theorem handCommand_untouched (code : Byte) (c : Content) (body : List Byte) (f : State → State) (s : State)
    (hf : ∀ x, Untouched x (f x)) : Untouched s (handCommand code c body f s) := by
  unfold handCommand
  split
  · exact .of_same (by simp) (by simp)
  · have h1 : Untouched s (handOver c .cnf s) := .of_same (by simp) (by simp)
    exact (h1.trans (hf _)).trans (.of_same (answer_sto _ _ _ _) (answer_scu _ _ _ _))

/-- The steps that write the store, or the settings store's flag (R5, R8, R9). -/
def isStoring : Instr → Bool
  | .loadingReadEnd | .storeWriteEnd | .storeWrite .. => true
  | _ => false

end Sys2Proof.Machine

namespace Sys2Proof.Machine

open Sys2Proof.Safety

theorem faultAtController_untouched (s : State) : Untouched s (faultAtController s) := by
  unfold faultAtController doubleFault enterRecovering
  dsimp only
  (repeat' split) <;> exact .of_same (by simp) (by simp)

theorem endJoinWait_untouched (s : State) : Untouched s (endJoinWait s) := by
  unfold endJoinWait
  dsimp only
  split <;> exact .of_same (by simp) (by simp)

theorem mismatch_untouched (cell : Nat) (r : CellReading) (s : State) : Untouched s (mismatch cell r s) := by
  unfold mismatch
  dsimp only
  split <;> exact .of_same (by simp) (by simp)

theorem discard_untouched (a o : CellReading) (s : State) : Untouched s (discard a o s) := by
  unfold discard
  split <;> exact .of_same (by simp) (by simp)

theorem leaveRecovering_untouched (s : State) : Untouched s (leaveRecovering s) := by
  unfold leaveRecovering
  dsimp only
  split <;> exact .of_same (by simp) (by simp)

theorem reachArm_untouched (s : State) : Untouched s (reachArm s) := by
  unfold reachArm
  split <;> exact .of_same (by simp) (by simp)

theorem saturateClock_untouched (s : State) : Untouched s (saturateClock s) := by
  unfold saturateClock
  dsimp only
  (repeat' split) <;> exact .of_same (by simp) (by simp)

theorem answerExpiry_untouched (s : State) : Untouched s (answerExpiry s) := by
  unfold answerExpiry
  dsimp only
  split <;> exact .of_same (by simp) (by simp)

theorem queueClaim_untouched (stamp : Nat) (s : State) : Untouched s (queueClaim stamp s) := by
  unfold queueClaim
  dsimp only
  split <;> exact .of_same (by simp) (by simp)

theorem queueChoice_untouched (key stamp : Nat) (s : State) : Untouched s (queueChoice key stamp s) := by
  unfold queueChoice
  dsimp only
  split <;> exact .of_same (by simp) (by simp)

/-- What a press is judged to be leaves store and figures alone. -/
theorem judge_untouched (d : DeskInput) (time : Nat) (s : State) : Untouched s (judge d time s) := by
  unfold judge judgeBuzz judgeKey
  dsimp only
  (repeat' split)
  any_goals exact .of_same rfl rfl
  · exact Untouched.trans (t := startHold s) (.of_same rfl rfl) (queueClaim_untouched _ _)
  · exact queueChoice_untouched _ _ s

theorem acceptPress_untouched (d : DeskInput) (capture : Nat) (s : State) : Untouched s (acceptPress d capture s) := by
  have h : ∀ i, Untouched s (setInput d i s) := fun i => .of_same rfl rfl
  unfold acceptPress
  dsimp only
  split
  · exact (h _).trans (judge_untouched d capture _)
  · exact h _

theorem acceptRelease_untouched (d : DeskInput) (s : State) : Untouched s (acceptRelease d s) := by
  unfold acceptRelease
  dsimp only
  split <;> exact .of_same rfl rfl

theorem holdEnd_untouched (s : State) : Untouched s (holdEnd s) := by
  have h : Untouched s (endHold s) := .of_same rfl rfl
  unfold holdEnd queuePass
  dsimp only
  split
  · refine h.trans ?_
    split <;> exact .of_same (by simp) (by simp)
  · exact h

theorem storeRead_untouched (row : Byte) (s : State) : Untouched s (storeRead row s) := by
  unfold storeRead
  (repeat' split) <;> exact .of_same (by simp) (by simp)

/-- The console commands that score nothing. -/
theorem openRound_untouched (block : OpenBlock) (s : State) : Untouched s (openRound block s) := by
  unfold openRound
  split
  · exact handCommand_untouched _ _ _ _ s fun x => .of_same rfl rfl
  · exact .of_same (by simp) (by simp)

theorem closeRound_untouched (s : State) : Untouched s (closeRound s) := by
  unfold closeRound
  split
  · exact handCommand_untouched _ _ _ _ s .refl
  · exact .of_same (by simp) (by simp)

theorem revealRound_untouched (key : Byte) (s : State) : Untouched s (revealRound key s) := by
  unfold revealRound
  split
  · exact .of_same (by simp) (by simp)
  split
  · exact handCommand_untouched _ _ _ _ s .refl
  · exact .of_same (by simp) (by simp)

theorem hostVerdict_untouched (outcome expected : Byte) (s : State) : Untouched s (hostVerdict outcome expected s) := by
  unfold hostVerdict
  split
  · exact .of_same (by simp) (by simp)
  · exact .of_same (by simp) (by simp)
  · refine handCommand_untouched _ _ _ _ s fun x => ?_
    unfold hostVerdictHanded
    split <;> exact .of_same rfl rfl

theorem sendTally_untouched (s : State) : Untouched s (sendTally s) := .of_same (by simp [sendTally]) (by simp [sendTally])

theorem rollCall_untouched (window : Byte) (s : State) : Untouched s (rollCall window s) := by
  unfold rollCall
  split
  · exact .of_same (by simp) (by simp)
  · exact handCommand_untouched _ _ _ _ s fun x => .of_same rfl rfl

/-- Every command but resets, scoring steps and the store's own leaves store and figures alone. -/
theorem exec_untouched (c : Instr) (s t : State) (hr : isReset c = false) (hsc : isScoring c = false)
    (hst : isStoring c = false) (h : exec c s = .next t) : Untouched s t := by
  cases c with
  | powerOnReset | resetN | restart => cases hr
  | verdictTaken | revealTaken | tallyTaken | setTotal | adjust => cases hsc
  | loadingReadEnd | storeWriteEnd | storeWrite => cases hst
  | joiningIdleWaitEnd => exact when_untouched h (endJoinWait_untouched s)
  | lineIdle => exact when_untouched h (.of_same (reachIdle_sto s) (reachIdle_scu s))
  | arbitrationLost cell =>
    exact when_untouched h (f := loseArbitration cell)
      (.of_same (by simp [loseArbitration]) (by simp [loseArbitration]))
  | arbitrationWon => exact when_untouched h (.of_same (by simp [winArbitration]) (by simp [winArbitration]))
  | bitMismatch cell pulse => exact when_untouched h (mismatch_untouched cell _ s)
  | slotsReached => exact when_untouched h (.of_same (by simp [reachSlots]) (by simp [reachSlots]))
  | frameDiscarded cells ack objection => exact when_untouched h (discard_untouched _ _ s)
  | lineFault =>
    unfold exec execLineFault at h
    exact when_untouched h (Untouched.trans (t := faultAtLine s) (.of_same rfl rfl) (faultAtController_untouched _))
  | recoveryQuietEnd => exact when_untouched h (leaveRecovering_untouched s)
  | recoveryDeadline => exact when_untouched h (.of_same (by simp [recoveryFailed]) (by simp [recoveryFailed]))
  | faultMemoryExpiry =>
    unfold exec execFaultMemoryExpiry at h
    exact when_untouched h (.of_same rfl rfl)
  | openTaken desk round block => exact takes_untouched h (openEffect_untouched round block)
  | closeTaken desk round point => exact takes_untouched h (closeEffect_untouched round point)
  | passTaken desk round turn team => exact takes_untouched h (passEffect_untouched round turn team)
  | claimTaken desk round stamp team => exact takes_untouched h (claimEffect_untouched desk round stamp team)
  | choiceTaken desk round stamp key team => exact takes_untouched h (choiceEffect_untouched desk round stamp key team)
  | rollTaken desk round id window => exact takes_untouched h (rollEffect_untouched id window)
  | presentTaken desk round role team id flags =>
    exact takes_untouched h (presentEffect_untouched desk role team id flags)
  | helloTaken desk round role team tag => exact takes_untouched h (helloEffect_untouched desk role team tag)
  | roundClockTick => exact when_untouched h (f := tick) (.of_same rfl rfl)
  | armReached => exact when_untouched h (reachArm_untouched s)
  | windowEnd => exact when_untouched h (.of_same (by simp [endWindow]) (by simp [endWindow]))
  | roundClockSaturation => exact when_untouched h (saturateClock_untouched s)
  | settleDeadline => exact when_untouched h (.of_same (grant_sto s) (grant_scu s))
  | settleOut => exact when_untouched h (.of_same (enterEnded_sto s) (enterEnded_scu s))
  | answerClockStep => exact when_untouched h (f := answerStep) (.of_same rfl rfl)
  | answerClockExpiry => exact when_untouched h (answerExpiry_untouched s)
  | inputFallingEdge d => exact when_untouched h (f := fallInput d) (.of_same rfl rfl)
  | inputRisingEdge d => exact when_untouched h (f := riseInput d) (.of_same rfl rfl)
  | pressAccepted d => exact when_untouched h (acceptPress_untouched d _ s)
  | releaseAccepted d => exact when_untouched h (acceptRelease_untouched d s)
  | passHoldEnd => exact when_untouched h (holdEnd_untouched s)
  | jumpLockEnd => exact when_untouched h (.refl s)
  | blinkBaseHalfPeriod => cases h; exact .of_same rfl rfl
  | droppedFrameFlashEnd | displayUpdateEnd | transferStart | transferEndNoCommand =>
    simp only [exec, execDroppedFrameFlashEnd, execDisplayUpdateEnd, execTransferStart, execTransferEndNoCommand] at h
    exact when_untouched h (.of_same rfl rfl)
  | rollWindowExpiry => exact when_untouched h (f := endRoll) (.of_same rfl rfl)
  | unknownCommand code args => exact when_untouched h (.of_same (answer_sto _ _ _ s) (answer_scu _ _ _ s))
  | nop | setEventMask | clearFaults | clearEvents =>
    simp only [exec, execNop, execSetEventMask, execClearFaults, execClearEvents] at h
    exact command_untouched h (.of_same rfl rfl)
  | status | readScores | readClaims | readChoices | readPresence | readRollReport | readFaults | readEvents =>
    simp only [exec, execStatus, execReadScores, execReadClaims, execReadChoices, execReadPresence,
      execReadRollReport, execReadFaults, execReadEvents] at h
    exact command_untouched h (.of_same rfl rfl)
  | storeRead row => exact command_untouched h (storeRead_untouched row s)
  | openRound block => exact consoleCommand_untouched h (openRound_untouched block s)
  | closeRound => exact consoleCommand_untouched h (closeRound_untouched s)
  | verdictCommand outcome expected => exact consoleCommand_untouched h (hostVerdict_untouched outcome expected s)
  | revealCommand key => exact consoleCommand_untouched h (revealRound_untouched key s)
  | sendTally => exact consoleCommand_untouched h (sendTally_untouched s)
  | rollCall window => exact consoleCommand_untouched h (rollCall_untouched window s)
  | clearRollReport =>
    unfold exec execClearRollReport at h
    exact consoleCommand_untouched h (.of_same rfl rfl)
  | lineLevelChange change =>
    cases change with
    | toDominant ns => exact when_untouched h (.of_same (lineDominant_sto ns s) (lineDominant_scu ns s))
    | toRecessive ns => exact when_untouched h (.of_same (lineRecessive_sto ns s) (lineRecessive_scu ns s))
  | startMarkRecognized =>
    exact when_untouched h (f := beginReceiving) (.of_same rfl rfl)
  | objectionRunBegun cells => exact when_untouched h (f := leaveFrame) (.of_same rfl rfl)

end Sys2Proof.Machine

namespace Sys2Proof.Machine

open Sys2Proof.Safety

/-- The four rows of the store (R7). -/
def Sto.rows (x : Sto) : List Half := [x.row0, x.row1, x.row2, x.row3]

theorem rows_eq_iff (x y : Sto) :
    x.rows = y.rows ↔ x.row0 = y.row0 ∧ x.row1 = y.row1 ∧ x.row2 = y.row2 ∧ x.row3 = y.row3 := by
  simp [Sto.rows]

theorem when_rows {b : Bool} {f : State → State} {s t : State} (h : when b f s = .next t)
    (hf : (f s).sto.rows = s.sto.rows) : t.sto.rows = s.sto.rows := by
  rcases when_next b f s with hw | hw <;> rw [hw] at h <;> cases h
  · simpa using hf
  · rfl

theorem endLoading_rows (s : State) : (endLoading s).sto.rows = s.sto.rows := by
  unfold endLoading acceptIdentity
  dsimp only
  (repeat' split) <;> simp [Sto.rows]

theorem storeWrite_rows (row : Byte) (value : Half) (setup : Bool) (s : State) :
    (storeWrite row value setup s).sto.rows = s.sto.rows := by
  unfold storeWrite
  (repeat' split) <;> simp [Sto.rows]

theorem setTotal_sto (team : Byte) (value : Half) (s : State) : (setTotal team value s).sto = s.sto := by
  unfold setTotal correct
  dsimp only
  split <;> simp

theorem adjust_sto (team : Byte) (delta : Half) (s : State) : (adjust team delta s).sto = s.sto := by
  unfold adjust correct
  dsimp only
  split <;> simp

/-- A store row changes at the end of a store write alone (R9). -/
theorem exec_rows (c : Instr) (s t : State) (hc : c ≠ .storeWriteEnd) (h : exec c s = .next t) :
    t.sto.rows = s.sto.rows := by
  by_cases hr : isReset c = true
  · rcases exec_reset c s t hr h with rfl | ⟨_, _, _, _, rfl⟩ <;> rfl
  by_cases hsc : isScoring c = true
  · cases c with
    | verdictTaken desk round turn team outcome check =>
      rw [takes_sto h (verdictEffect_sto _ round turn team outcome check)]
    | tallyTaken desk round page a b c d => rw [takes_sto h (tallyEffect_sto desk page _)]
    | revealTaken desk round key => rw [takes_sto h (revealEffect_sto round key)]
    | setTotal team value =>
      simp only [exec, execSetTotal, consoleCommand, command] at h
      refine when_rows h ?_
      split
      · rw [setTotal_sto]
      · simp
    | adjust team delta =>
      simp only [exec, execAdjust, consoleCommand, command] at h
      refine when_rows h ?_
      split
      · rw [adjust_sto]
      · simp
    | _ => simp [isScoring] at hsc
  by_cases hst : isStoring c = true
  · cases c with
    | loadingReadEnd => exact when_rows h (endLoading_rows s)
    | storeWrite row value setup => exact when_rows h (storeWrite_rows row value setup s)
    | storeWriteEnd => exact absurd rfl hc
    | _ => simp [isStoring] at hst
  · rw [(exec_untouched c s t (by simpa using hr) (by simpa using hsc) (by simpa using hst) h).sto]

/-- Totals and counts change by the scoring steps and the resets alone (R142). -/
theorem exec_figures (c : Instr) (s t : State) (hr : isReset c = false) (hsc : isScoring c = false)
    (h : exec c s = .next t) : t.scu.records.map TeamRec.figures = s.scu.records.map TeamRec.figures := by
  by_cases hst : isStoring c = true
  · cases c with
    | loadingReadEnd =>
      rcases exec_loadingReadEnd s t h with rfl | ⟨-, rfl⟩
      · rfl
      · unfold endLoading acceptIdentity
        dsimp only
        (repeat' split) <;> simp [confirmAll]
        intro x _
        rfl
    | storeWrite row value setup =>
      have hw : (storeWrite row value setup s).scu = s.scu := by
        unfold storeWrite
        (repeat' split) <;> simp
      rcases when_next (shifting s) (storeWrite row value setup) s with hn | hn <;>
        cases hn.symm.trans h
      · rw [refresh_scu, hw]
      · rfl
    | storeWriteEnd =>
      change execStoreWriteEnd s = .next t at h
      unfold execStoreWriteEnd at h
      rcases when_next (s.sto.timer.on && s.sto.write.isSome)
        (fun s => raise .storeDone (s.withSto s.sto.finish)) s with hn | hn <;> cases hn.symm.trans h <;> simp
    | _ => simp [isStoring] at hst
  · exact (exec_untouched c s t hr hsc (by simpa using hst) h).figures

/-- Settles O21: from what each command carries over (`exec_carries`) and what it leaves of store and figures
(`exec_rows`, `exec_figures`). -/
theorem onlyTheirCommandsChange : Obligations.OnlyTheirCommandsChange := by
  refine ⟨fun c s t hr h => ?_, fun c s t hr hsc h => exec_figures c s t hr hsc h, fun c s t h => ⟨fun hc => ?_, fun hr hl => ?_⟩,
    fun c s t hr he h => ?_⟩
  · have hx : (s.lcu.tx.shut = true → t.lcu.tx = s.lcu.tx) ∧ (s.suu.muted = true → t.suu.muted = true) := by
      by_cases hl : c = .loadingReadEnd
      · subst hl
        rcases exec_loadingReadEnd s t h with rfl | ⟨-, rfl⟩
        · exact ⟨fun _ => rfl, id⟩
        · obtain ⟨h1, -, -, -, -, h6⟩ := endLoading_frame s
          exact ⟨fun _ => by rw [refresh_lcu, h1], fun hm => by rw [refresh_suu, h6]; exact hm⟩
      by_cases he : ∃ n, c = .clearEvents n
      · obtain ⟨n, rfl⟩ := he
        obtain ⟨h1, -, h2, -⟩ := exec_clearEvents n s t h
        exact ⟨fun _ => by rw [h2], fun hm => by rw [h1]; exact hm⟩
      · have hc := exec_carries c s t hr hl (fun n hn => he ⟨n, hn⟩) h
        exact ⟨hc.shut, hc.muted⟩
    exact ⟨fun hh => (hx.1 (by rw [hh]; rfl)).trans hh, fun hh => (hx.1 (by rw [hh]; rfl)).trans hh, hx.2⟩
  · exact (rows_eq_iff _ _).mp (exec_rows c s t hc h)
  · by_cases he : ∃ n, c = .clearEvents n
    · obtain ⟨n, rfl⟩ := he
      rw [(exec_clearEvents n s t h).1]
    · exact (exec_carries c s t hr hl (fun n hn => he ⟨n, hn⟩) h).identity
  · by_cases hl : c = .loadingReadEnd
    · subst hl
      rcases exec_loadingReadEnd s t h with rfl | ⟨-, rfl⟩
      · exact BitVec.and_self
      · obtain ⟨-, -, -, h4, -⟩ := endLoading_frame s
        simp [h4]
    · exact (exec_carries c s t hr hl he h).flags

end Sys2Proof.Machine

namespace Sys2Proof.Machine

open Sys2Proof.Safety

/-! ### Resets (R15) -/

/-- Settles O3, each block by its own reset value. -/
theorem resetValues : Obligations.ResetValues := by
  unfold Obligations.ResetValues
  have hinput : ∀ d, (State.reset.icu.input d).filter = .released ∧ (State.reset.icu.input d).timer = .off := by
    intro d; cases d <;> exact ⟨rfl, rfl⟩
  have hheard : ∀ e ∈ State.reset.prs.entries, e.heard = false := fun e he => by rw [List.eq_of_mem_replicate he]; rfl
  refine ⟨rfl, rfl, rfl, rfl, rfl, rfl, rfl, rfl, rfl, rfl, rfl, rfl, rfl, rfl, rfl, rfl, rfl, hinput, ?_⟩
  refine ⟨rfl, rfl, rfl, rfl, rfl, rfl, rfl, rfl, rfl, rfl, rfl, rfl, rfl, rfl, rfl, rfl, rfl, rfl, rfl, rfl, rfl, rfl,
    hheard, ?_⟩
  exact ⟨rfl, rfl, rfl, rfl, rfl, rfl, rfl, rfl, rfl, rfl⟩

/-- A reset places every block, whatever the state was (R15). -/
theorem resetState_afterReset (cause : ResetCause) (role1 role0 csN : Bool) (s : State) :
    AfterReset cause role1 role0 csN s (resetState cause role1 role0 csN s) := by
  have hinput : ∀ d, (resetState cause role1 role0 csN s).icu.input d =
      { low := (s.icu.input d).low, filter := .released, timer := .off } := by
    intro d; cases d <;> rfl
  exact ⟨rfl, rfl, rfl, rfl, rfl, rfl, rfl, hinput, rfl, rfl, rfl, rfl, rfl, rfl, rfl, rfl, rfl, rfl, rfl⟩

/-- Settles O4: the three resets are `resetState`, a RESTART's at the end of a transfer. -/
theorem resetsPlaceEveryBlock : Obligations.ResetsPlaceEveryBlock := by
  intro role1 role0 s
  refine ⟨⟨_, rfl, resetState_afterReset _ _ _ _ s⟩, ⟨_, rfl, resetState_afterReset _ _ _ _ s⟩, fun h => ?_⟩
  refine ⟨_, ?_, resetState_afterReset .restart role1 role0 true s⟩
  have hs : shifting s = true := by simp [shifting, h]
  exact if_pos hs

end Sys2Proof.Machine

namespace Sys2Proof.Machine

open Sys2Proof.Safety

/-! ### Frames of steps -/

/-- A part other than panel and port is not touched by the refresh of the outputs. -/
theorem same_refresh (b : Block) (s u : State) (h1 : b ≠ .pnl) (h2 : b ≠ .cmp) (h : b.same s u) :
    b.same s (refresh u) := by
  cases b <;> simp_all [Block.same]

/-- The frame of a step that ends in a refresh of u, panel or port named among the changed parts or left alone by u. -/
theorem stepFrame_of (changed : List Block) (raised : BitVec 14) (s u : State)
    (h : ∀ b, b ∉ changed → b ≠ .pnl → b ≠ .cmp → b.same s u) (hp : .pnl ∉ changed → u.pnl = s.pnl)
    (hc : .cmp ∉ changed → u.cmp = { s.cmp with flags := u.cmp.flags }) (hf : u.cmp.flags = s.cmp.flags ||| raised)
    (hq : u.pending = s.pending) : StepFrame changed raised s (refresh u) := by
  refine ⟨fun b hb => ?_, by simp [hf], by simp [hq], refresh_outputs u⟩
  by_cases h1 : b = .pnl
  · subst h1
    have hpe := hp hb
    refine ⟨by simp [hpe], by simp [hpe], ?_⟩
    have hd := refresh_display u
    unfold DisplayFollows at hd ⊢
    rwa [hpe] at hd
  by_cases h2 : b = .cmp
  · subst h2
    have hce := hc hb
    change (refresh u).cmp = _
    rw [refresh_cmp, hce]
  · exact same_refresh b s u h1 h2 (h b hb h1 h2)

/-! ### Answered commands (R195, R204) -/

/-- A command answered on a state whose port stands as it stood (R195; log 14). -/
theorem answer_replied (code : Byte) (rc : ReplyCode) (body : List Byte) (s u : State) (h : u.cmp = s.cmp) :
    Replied code rc body s (refresh (answer code rc body u)) := by
  unfold Replied
  rw [refresh_cmp]
  simp [answer, Cmp.release, replyRecord, h]

/-- The frame of a command answered on what u holds. -/
theorem answer_stepFrame (changed : List Block) (code : Byte) (rc : ReplyCode) (body : List Byte) (s u : State)
    (hcmp : .cmp ∈ changed) (hfree : .free ∈ changed) (h : ∀ b, b ∉ changed → b ≠ .pnl → b ≠ .cmp → b.same s u)
    (hp : u.pnl = s.pnl) (hc : u.cmp = s.cmp) (hq : u.pending = s.pending) :
    StepFrame changed 0 s (refresh (answer code rc body u)) := by
  refine stepFrame_of changed 0 s _ (fun b hb h1 h2 => ?_) (fun _ => hp) (fun hn => absurd hcmp hn) ?_ hq
  · have hb' := h b hb h1 h2
    cases b <;> simp_all [Block.same]
  · simp [answer, Cmp.release, hc]

theorem answer_onlyReplied (code : Byte) (rc : ReplyCode) (body : List Byte) (s : State) :
    OnlyReplied code rc body s (refresh (answer code rc body s)) :=
  ⟨answer_replied code rc body s s rfl,
    answer_stepFrame _ code rc body s s (by simp) (by simp) (fun b _ h1 h2 => by cases b <;> simp_all [Block.same])
      rfl rfl rfl⟩

/-- In a transfer a command is taken. -/
theorem command_shifting (f : State → State) (s : State) (h : s.cmp.transfer = .shifting) :
    command f s = .next (refresh (f s)) := when_occurs f s (by simp [shifting, h])

/-! ### The store (R7 to R9) -/

/-- The rows of the store by their number (R7). -/
theorem getRow_eq (x : Sto) (row : Nat) : x.getRow row = [x.row0, x.row1, x.row2, x.row3][row]? := by
  match row with
  | 0 | 1 | 2 | 3 => rfl
  | n + 4 => rfl

/-- A row 0..3 written leaves the other three (R9). -/
theorem setRow_rows (x : Sto) (row : Nat) (v : Half) (h : row ≤ 3) :
    [(x.setRow row v).row0, (x.setRow row v).row1, (x.setRow row v).row2, (x.setRow row v).row3] =
      [x.row0, x.row1, x.row2, x.row3].set row v := by
  interval_cases row <;> rfl

/-- The store once a write has ended: the row, the flag, the timer (R9). -/
theorem finish_write (x : Sto) (row : Nat) (v : Half) (h : x.write = some (row, v)) :
    x.finish = { x.setRow row v with busy := false, write := none, timer := .off } := by
  simp [Sto.finish, h]

theorem storeRead_unknown (row : Byte) (s : State) (h : 3 < row.toNat) : storeRead row s = answer 0x0C .unknown [] s := by
  have hn : s.sto.getRow row.toNat = none := by rw [getRow_eq, List.getElem?_eq_none_iff]; exact h
  unfold storeRead
  rw [hn]

theorem storeRead_row (row : Byte) (v : Half) (s : State)
    (h : [s.sto.row0, s.sto.row1, s.sto.row2, s.sto.row3][row.toNat]? = some v) :
    storeRead row s = if s.sto.busy then answer 0x0C .busy [] s else answer 0x0C .ok (row :: bytes2 v) s := by
  unfold storeRead
  rw [getRow_eq, h]

/-- Settles O23, each check of the store's commands in its order. -/
theorem storeAccess : Obligations.StoreAccess := by
  intro s
  refine ⟨fun hsh => ⟨fun row => ⟨fun hr => ?_, fun hr hb => ?_, fun v hv hb => ?_⟩, fun row v setup =>
    ⟨fun hr => ?_, fun hr hb => ?_, fun hr hb hs => ?_, fun hr hb hs => ?_⟩⟩, fun row v ht hw hrow => ?_⟩
  · refine ⟨_, command_shifting (storeRead row) s hsh, ?_⟩
    rw [storeRead_unknown row s hr]
    exact answer_onlyReplied _ _ _ s
  · refine ⟨_, command_shifting (storeRead row) s hsh, ?_⟩
    rw [storeRead_row row _ s (List.getElem?_eq_getElem (show row.toNat < 4 by omega)), if_pos hb]
    exact answer_onlyReplied _ _ _ s
  · refine ⟨_, command_shifting (storeRead row) s hsh, ?_⟩
    rw [storeRead_row row v s hv, if_neg (by simp [hb])]
    exact answer_onlyReplied _ _ _ s
  · refine ⟨_, command_shifting (storeWrite row v setup) s hsh, ?_⟩
    rw [storeWrite, if_pos hr]
    exact answer_onlyReplied _ _ _ s
  · refine ⟨_, command_shifting (storeWrite row v setup) s hsh, ?_⟩
    rw [storeWrite, if_neg (Nat.not_lt.mpr hr), if_pos hb]
    exact answer_onlyReplied _ _ _ s
  · refine ⟨_, command_shifting (storeWrite row v setup) s hsh, ?_⟩
    rw [storeWrite, if_neg (Nat.not_lt.mpr hr), if_neg (by simp [hb]), if_pos hs]
    exact answer_onlyReplied _ _ _ s
  · refine ⟨_, command_shifting (storeWrite row v setup) s hsh, ?_⟩
    rw [storeWrite, if_neg (Nat.not_lt.mpr hr), if_neg (by simp [hb]), if_neg (by simp [hs])]
    refine ⟨answer_replied _ _ _ s _ rfl, rfl, answer_stepFrame _ _ _ _ s _ (by simp) (by simp) ?_ rfl rfl rfl⟩
    intro b hb' h1 h2
    cases b <;> simp_all [Block.same]
  · refine ⟨_, when_occurs (fun s => raise .storeDone (s.withSto s.sto.finish)) s (by simp [ht, hw]), ?_⟩
    have hf := finish_write s.sto row v hw
    have hrows := setRow_rows s.sto row v hrow
    refine ⟨by simpa [hf] using hrows, by simp [hf], by simp [hf], by simp [hf], ?_⟩
    refine stepFrame_of _ _ s _ (fun b hb h1 h2 => ?_) (fun _ => rfl) (fun _ => rfl) rfl rfl
    cases b <;> simp_all [Block.same]

end Sys2Proof.Machine

namespace Sys2Proof.Machine

open Sys2Proof.Safety

/-! ### A frame queued (R26, R36, R40, R41) -/

theorem beginFrame_eq (s : State) (f : QFrame) : beginFrame s f = begun s f := by
  unfold beginFrame begun roundFor
  cases f.content <;> rfl

/-- The first frame of a queue that is not empty begins its attempt (R40). -/
theorem offer_eq (s : State) (h : s.lcu.queue ≠ []) :
    offer s =
      s.withLcu
        { s.lcu with
          queue := offered s s.lcu.queue, tx := .contending, history := entered [.contending] s.lcu.history } := by
  have hr : (TxState.contending == TxState.recovering) = false := rfl
  unfold offer
  cases hq : s.lcu.queue with
  | nil => exact absurd hq h
  | cons f rest => simp [enterTx, setQueue, offered, beginFrame_eq, entered, hr, State.withLcu]

theorem wait_eq (s : State) :
    wait s =
      s.withLcu
        { s.lcu with
          tx := if s.lcu.tx = .idle then .waiting else s.lcu.tx
          history := if s.lcu.tx = .idle then entered [.waiting] s.lcu.history else s.lcu.history } := by
  have hr : (TxState.waiting == TxState.recovering) = false := rfl
  unfold wait
  split <;> simp [enterTx, entered, hr, State.withLcu]

/-- What a newly queued frame makes of the line controller, and of nothing else (R26, R36, R40, R41). -/
theorem startOrWait_queued (c : Content) (h : Hander) (s : State) :
    Queued c h s (startOrWait (setQueue (insertFrame (fresh c h) s.lcu.queue) s)) ∧
      ∃ l, startOrWait (setQueue (insertFrame (fresh c h) s.lcu.queue) s) = s.withLcu l := by
  have hb := begins_iff (setQueue (insertFrame (fresh c h) s.lcu.queue) s)
  have hne := insertFrame_ne_nil (fresh c h) s.lcu.queue
  rw [setQueue_lif] at hb
  unfold Queued
  dsimp only
  rcases startOrWait_cases (setQueue (insertFrame (fresh c h) s.lcu.queue) s) with
    ⟨h1, h2, heq⟩ | ⟨htx, hs, heq⟩ | ⟨htx, hi, hj, heq⟩ <;> rw [heq]
  · rw [if_pos ⟨h1, h2⟩]
    exact ⟨rfl, _, rfl⟩
  · have hst := hb.mp (by rcases hs with hs | hs <;> simp [hs])
    rw [if_neg fun hn => by rcases htx with htx | htx; exacts [hn.1 htx, hn.2 htx], if_pos hst, offer_eq _ hne]
    exact ⟨rfl, _, rfl⟩
  · have hst := hb.not.mp (by simp [hi, hj])
    rw [if_neg fun hn => by rcases htx with htx | htx; exacts [hn.1 htx, hn.2 htx], if_neg hst, wait_eq]
    refine ⟨?_, _, rfl⟩
    rcases htx with htx | htx
    · simp [show s.lcu.tx = .idle from htx]
    · simp [show s.lcu.tx = .waiting from htx]

/-- A hand-over answered QUEUED (R36). -/
theorem handOver_queued (c : Content) (h : Hander) (s : State) (ha : handAnswer c s = .queued) :
    Queued c h s (handOver c h s) ∧ ∃ l, handOver c h s = s.withLcu l := by
  unfold handOver
  rw [ha]
  exact startOrWait_queued c h s

/-- A hand-over to an empty place of the role's, at work, under a transmitter that is not shut (R36). -/
theorem handAnswer_queued (c : Content) (s : State) (hx : s.lcu.tx.shut = false) (hw : s.suu.startUp.atWork = true)
    (hr : s.suu.identity.role.hasPlace c.place = true) (hn : frameAt c.place s.lcu.queue = none) :
    handAnswer c s = .queued := by
  simp [handAnswer, hx, hw, hr, hn]

theorem shut_iff (x : TxState) : x.shut = true ↔ x = .halted ∨ x = .muted := by cases x <;> simp [TxState.shut]

theorem not_shut {x : TxState} (h1 : x ≠ .halted) (h2 : x ≠ .muted) : x.shut = false := by
  cases x <;> simp_all [TxState.shut]

/-! ### The end of LOADING (R1 to R5) -/

theorem strapRole_cases (a b : Bool) :
    (a = false → b = false → strapRole a b = .team) ∧ (a = false → b = true → strapRole a b = .console) ∧
      (a = true → b = false → strapRole a b = .wall) ∧ (a = true → b = true → strapRole a b = .none) := by
  cases a <;> cases b <;> simp [strapRole]

/-- The identity check, spelled out (R3). -/
theorem identityReason_eq (role : Role) (desk team : Nat) :
    identityReason role desk team =
      if role = .none then .badRole
      else if role = .team ∧ ¬(1 ≤ desk ∧ desk ≤ 48) ∨ role = .console ∧ desk ≠ 0 ∨
          role = .wall ∧ ¬(56 ≤ desk ∧ desk ≤ 63) then .badDesk
      else if role = .team ∧ ¬(1 ≤ team ∧ team ≤ 16) then .badTeam
      else .none := by
  unfold identityReason
  cases role <;> simp [deskSuits, isTeam, Decidable.imp_iff_not_or, not_le]

end Sys2Proof.Machine

namespace Sys2Proof.Machine

open Sys2Proof.Safety

/-- The identity check reads a team only under the role TEAM, whose record shows it (R2, R3). -/
theorem fillIdentity_reason (s : State) :
    (fillIdentity s).reason =
      if (fillIdentity s).role = .none then .badRole
      else if (fillIdentity s).role = .team ∧ ¬(1 ≤ (fillIdentity s).desk ∧ (fillIdentity s).desk ≤ 48) ∨
          (fillIdentity s).role = .console ∧ (fillIdentity s).desk ≠ 0 ∨
          (fillIdentity s).role = .wall ∧ ¬(56 ≤ (fillIdentity s).desk ∧ (fillIdentity s).desk ≤ 63) then .badDesk
      else if (fillIdentity s).role = .team ∧ ¬(1 ≤ (fillIdentity s).team ∧ (fillIdentity s).team ≤ 16) then .badTeam
      else .none := by
  simp only [fillIdentity, identityReason_eq]
  by_cases hr : strapRole s.suu.strap1 s.suu.strap0 = .team <;> simp [hr]

/-- The failed check: CONFIG_FAULT with the identity as read (R3). -/
theorem endLoading_fault (s : State) (h : (fillIdentity s).reason ≠ .none) :
    endLoading s =
      (s.withSto { s.sto with busy := false }).withSuu
        { s.suu with startUp := .configFault, identity := fillIdentity s } := by
  unfold endLoading
  dsimp only
  rw [if_neg h]
  rfl

/-- The accepted identity: JOINING, the filters synchronised, a console's scoreboard confirmed (R3, R10, R61, R138). -/
theorem endLoading_accepted (s : State) (h : (fillIdentity s).reason = .none) :
    endLoading s =
      (((s.withSto { s.sto with busy := false }).withSuu
        { s.suu with
          startUp := .joining, identity := fillIdentity s, joinWait := startJoinWait s.lif.dominant }).withIcu
        s.icu.sync).withScu
        ⟨if (fillIdentity s).role = .console then s.scu.records.map fun x => { x with unconfirmed := false }
         else s.scu.records⟩ := by
  unfold endLoading acceptIdentity
  dsimp only
  rw [if_pos h]
  split <;> rfl

/-- The filters synchronised, one by one (R61). -/
theorem sync_input (x : Icu) (d : DeskInput) :
    x.sync.input d =
      { low := (x.input d).low, filter := if (x.input d).low then .pressed none else .released, timer := .off } := by
  cases d <;> rfl

theorem hello_place (role : Role) (h : role ≠ .none) : role.hasPlace .hello = true := by
  cases role <;> simp_all [Role.hasPlace]

/-- The 5 ms wait of a shut transmitter's station (R10). -/
theorem endJoinWait_shut (s : State) (hj : s.suu.startUp = .joining) (hx : s.lcu.tx.shut = true) :
    endJoinWait s = s.withSuu { s.suu with startUp := .joined, joinWait := .off } := by
  simp [endJoinWait, enterJoined, hj, hx, State.withSuu]

/-- Settles O22: the end of LOADING by the identity check, the end of the 5 ms wait by the transmitter. -/
theorem startUpRows : Obligations.StartUpRows := by
  refine ⟨fun s hl => ?_, fun s hj hw => ⟨fun hx => ?_, fun h1 h2 hr hn => ?_⟩⟩
  · obtain ⟨r1, r2, r3, r4⟩ := strapRole_cases s.suu.strap1 s.suu.strap0
    refine ⟨_, fillIdentity s, when_occurs endLoading s (by simp [hl]), r1, r2, r3, r4, rowDesk_eq _, ?_, rfl,
      rowFilterMs_eq _, rowPassHold_eq _, rfl, rfl, fillIdentity_reason s, ?_, fun hf => ?_, fun hf => ?_⟩
    · rw [← rowTeam_eq]; rfl
    · by_cases hf : (fillIdentity s).reason = .none
      · rw [refresh_sto, endLoading_accepted s hf]; rfl
      · rw [refresh_sto, endLoading_fault s hf]; rfl
    · rw [endLoading_fault s hf]
      refine ⟨rfl, stepFrame_of _ _ s _ (fun b hb h1 h2 => ?_) (fun _ => rfl) (fun _ => rfl) (by simp) rfl⟩
      cases b <;> simp_all [Block.same]
    · rw [endLoading_accepted s hf]
      refine ⟨rfl, sync_input s.icu, rfl, rfl, rfl,
        stepFrame_of _ _ s _ (fun b hb h1 h2 => ?_) (fun _ => rfl) (fun _ => rfl) (by simp) rfl⟩
      cases b <;> simp_all [Block.same]
  · refine ⟨_, when_occurs endJoinWait s (by simp [hj, hw]), ?_⟩
    rw [endJoinWait_shut s hj ((shut_iff _).mpr hx)]
    refine ⟨rfl, stepFrame_of _ _ s _ (fun b hb h1 h2 => ?_) (fun _ => rfl) (fun _ => rfl) (by simp) rfl⟩
    cases b <;> simp_all [Block.same]
  · refine ⟨_, when_occurs endJoinWait s (by simp [hj, hw]), ?_⟩
    have hx := not_shut h1 h2
    obtain ⟨hq, l, heq⟩ := handOver_queued (helloContent s) .suu (s.withSuu { s.suu with joinWait := .off })
      (handAnswer_queued _ _ hx (by simp [hj, StartUp.atWork]) (hello_place _ hr) hn)
    have he : endJoinWait s = handOver (helloContent s) .suu (s.withSuu { s.suu with joinWait := .off }) := by
      unfold endJoinWait
      rw [if_neg (by simp [hx])]
      rfl
    rw [he]
    rw [heq] at hq ⊢
    refine ⟨rfl, hq, stepFrame_of _ _ s _ (fun b hb h1 h2 => ?_) (fun _ => rfl) (fun _ => rfl) (by simp) rfl⟩
    cases b <;> simp_all [Block.same]

end Sys2Proof.Machine

namespace Sys2Proof.Machine

open Sys2Proof.Safety

/-! ### The header's length field (R23, R25) -/

@[simp] theorem bitsOf_length {n : Nat} (x : BitVec n) : (bitsOf x).length = n := by simp [bitsOf]

/-- The five bits of the length field spell its number, most significant first (R23). -/
theorem natOfBits_bitsOf_five : ∀ x : BitVec 5, natOfBits (bitsOf x) = x.toNat := by decide

theorem payloadBytes_length_lt (p : Payload) : (payloadBytes p).length < 32 := by
  cases p <;> simp [payloadBytes, bytes2, bytes3, blockBytes, bytes4]

theorem wireBits_length (f : Frame) : (wireBits f).length = 39 + 8 * (payloadBytes f.body).length := by
  simp [wireBits, frameBits]; omega

theorem readBits_cleanCells (bits : List Bool) : readBits (cleanCells bits) = some bits := by
  induction bits with
  | nil => rfl
  | cons b bs ih =>
    have hb : (CellReading.ofBit b).bit? = some b := by cases b <;> rfl
    simp only [cleanCells, List.map_cons, readBits, hb] at ih ⊢
    rw [ih]

/-- The header of a frame on the wire gives its payload's length. -/
theorem headerLength_wireBits (f : Frame) : headerLength ((wireBits f).take 23) = (payloadBytes f.body).length := by
  have h : (((wireBits f).take 23).drop 18).take 5 = bitsOf (BitVec.ofNat 5 (payloadBytes f.body).length) := by
    simp [wireBits, frameBits, List.take_append, List.drop_append, List.drop_of_length_le, List.take_of_length_le]
  rw [headerLength, h, natOfBits_bitsOf_five, BitVec.toNat_ofNat]
  exact Nat.mod_eq_of_lt (payloadBytes_length_lt f.body)

/-- The cells read so far of a frame tell its length once the header has been read. -/
theorem placedCells_prefix (f : Frame) (cells : List CellReading) (h : cells <+: cleanCells (wireBits f))
    (hl : 23 ≤ cells.length) : placedCells cells = some (39 + 8 * (payloadBytes f.body).length) := by
  have ht : cells.take headerCells = cleanCells ((wireBits f).take 23) := by
    rw [List.prefix_iff_eq_take.mp h, List.take_take, Nat.min_eq_left (by simpa [headerCells] using hl), cleanCells,
      ← List.map_take]
    rfl
  unfold placedCells
  rw [if_neg (by simpa [headerCells] using hl), ht, readBits_cleanCells]
  simp only [Option.map_some, headerLength_wireBits, headerCells]
  congr 1
  omega

/-! ### Level changes (R10, R17 to R20, R29, R45) -/

/-- The readings of a pulse by its length (R18). -/
theorem readCell_pulse (ns : Nat) :
    (ns < 1000 → readCell (.pulse ns) = .widthError) ∧ (1000 ≤ ns → ns < 3500 → readCell (.pulse ns) = .one) ∧
      (3500 ≤ ns → ns < 4500 → readCell (.pulse ns) = .widthError) ∧
      (4500 ≤ ns → ns ≤ 7000 → readCell (.pulse ns) = .zero) ∧ (7000 < ns → readCell (.pulse ns) = .widthError) := by
  unfold readCell
  dsimp only
  refine ⟨fun h => by simp [h], fun h1 h2 => ?_, fun h1 h2 => ?_, fun h1 h2 => ?_, fun h => ?_⟩
  · rw [if_neg (by omega), if_pos h2]
  · rw [if_neg (by omega), if_neg (by omega), if_pos h2]
  · rw [if_neg (by omega), if_neg (by omega), if_neg (by omega), if_pos h2]
  · rw [if_neg (by omega), if_neg (by omega), if_neg (by omega), if_neg (by omega)]

theorem atWork_eq (x : StartUp) : x.atWork = (x == .joining || x == .joined) := by cases x <;> rfl

/-- A width error takes the place of the last cell read (R18). -/
theorem markWidthError_snoc (cells : List CellReading) (c : CellReading) :
    markWidthError (cells ++ [c]) = cells ++ [.widthError] := by
  simp [markWidthError]

/-- A fall between pulses reads nothing. -/
theorem fall_closed (x : Lif) (ns : Nat) (hd : x.decode ≠ .hunt) (ho : x.opened = false) :
    x.fall ns = { x with opened := false, since := x.since + x.pulseOf ns } := by
  simp [Lif.fall, Lif.readPulse, ho, hd]

/-- A fall in FRAME reads a cell (R18, R29). -/
theorem fall_frameCell (x : Lif) (ns : Nat) (hd : x.decode = .frame) (ho : x.opened = true) :
    x.fall ns =
      { x with
        opened := false, since := x.since + x.pulseOf ns, cells := x.cells ++ [readCell (.pulse (x.pulseOf ns))]
        decode := decodeAt (x.cells ++ [readCell (.pulse (x.pulseOf ns))]) } := by
  simp [Lif.fall, Lif.readPulse, Lif.readFrameCell, ho, hd]

/-- A fall in TAIL reads the ack slot, once (R29, R31). -/
theorem fall_tail (x : Lif) (ns : Nat) (hd : x.decode = .tail) (ho : x.opened = true) :
    x.fall ns =
      { x with
        opened := false, since := x.since + x.pulseOf ns
        ack := if x.ack = none then some (readCell (.pulse (x.pulseOf ns))) else x.ack } := by
  cases ha : x.ack <;> simp [Lif.fall, Lif.readPulse, ho, hd, ha]

/-- The frame of a level change. -/
theorem levelChange_stepFrame (s u : State) (h : ∀ b, b ∉ [Block.suu, .lif, .lcu] → b ≠ .pnl → b ≠ .cmp → b.same s u)
    (hp : u.pnl = s.pnl) (hc : u.cmp = s.cmp) (hq : u.pending = s.pending) :
    StepFrame [.suu, .lif, .lcu] 0 s (refresh u) :=
  stepFrame_of _ _ s u h (fun _ => hp) (fun _ => by rw [hc]) (by simp [hc]) hq

/-- Settles O25: the line interface at an edge (`edgeAt`) and at a fall (`Lif.fall`), case by case. -/
theorem levelChanges : Obligations.LevelChanges := by
  refine ⟨⟨rfl, rfl, readCell_pulse⟩, fun f cells h => ⟨fun hl => ?_, fun hl => ⟨placedCells_prefix f cells h hl, ?_⟩⟩,
    fun s ns hdom => ?_, fun s ns hdom => ?_⟩
  · simp [placedCells, headerCells, hl]
  · simp [cleanCells, wireBits_length]
  · refine ⟨_, edgeAt ns s, when_occurs (lineDominant ns) s (by simp [hdom]), fun hd => ?_, fun hm => ?_,
      fun hd hm => ?_, ?_, rfl, rfl, levelChange_stepFrame s _ (fun b hb h1 h2 => ?_) rfl rfl rfl⟩
    · rw [edgeAt_plain ns s (by simp [hd]), edge_hunt _ _ hd]
    · obtain ⟨htx, hd, ha, hage⟩ := hm
      rw [edgeAt_missed ns s htx hd ha hage]
      refine ⟨fun h => ?_, fun h1 h2 => ?_, fun h => ?_⟩
      · rw [edgeInFrame_early _ _ (by omega)]; rfl
      · rw [edgeInFrame_opens _ _ (by omega) (by omega)]
      · rw [edgeInFrame_late _ _ (by omega)]
    · have hplain : edgeAt ns s = s.lif.edgeInFrame (s.lif.since + ns) := by
        rw [edgeAt_plain ns s ?_, edge_inside _ _ hd]
        by_contra hn
        simp only [not_or, not_not, not_le] at hn
        exact hm hn
      rw [hplain]
      refine ⟨fun h => edgeInFrame_late _ _ h, fun h1 h2 => edgeInFrame_opens _ _ h1 h2, fun h => ?_⟩
      rw [edgeInFrame_early _ _ h]
      refine ⟨fun a ha => by simp [ha], fun ha hc => by simp [ha, hc, markWidthError], fun cells c ha hc => ?_⟩
      simp [ha, hc, markWidthError_snoc]
    · simp only [refresh_lif, lineDominant, State.withSuu_lif, State.withLcu_lif, State.withLif_lif, atWork_eq]
    · cases b <;> simp_all [Block.same]
  · obtain ⟨hopen, -⟩ := fall_frame s.lif ns
    refine ⟨_, { s.lif.fall ns with opened := s.lif.opened }, when_occurs (lineRecessive ns) s hdom, fun hd => ?_,
      fun hd ho => ?_, fun hd ho => ?_, fun hd ho => ?_, ?_, rfl, ?_,
      levelChange_stepFrame s _ (fun b hb h1 h2 => ?_) rfl rfl rfl⟩
    · rw [fall_hunt _ _ hd]
    · rw [fall_closed _ _ hd ho, ho]; rfl
    · rw [fall_frameCell _ _ hd ho]; rfl
    · rw [fall_tail _ _ hd ho]; rfl
    · simp only [refresh_lif, lineRecessive, State.withSuu_lif, State.withLcu_lif, State.withLif_lif, hopen]
    · simp [lineRecessive, awaitsQuiet, Config.joinWaitUs]
    · cases b <;> simp_all [Block.same]

end Sys2Proof.Machine

namespace Sys2Proof.Machine

open Sys2Proof.Safety

/-! ### Presses (R58 to R71) -/

@[simp] theorem setInput_record (x : Icu) (d : DeskInput) (i : Input) : (x.setInput d i).record = x.record := by
  cases d <;> rfl

/-- One input set: it alone, hold and record kept. -/
theorem setInput_input (x : Icu) (d : DeskInput) (i : Input) (r : PressRecord) :
    ({ x.setInput d i with record := r } : Icu).input d = i ∧
      (∀ e, e ≠ d → ({ x.setInput d i with record := r } : Icu).input e = x.input e) ∧
      ({ x.setInput d i with record := r } : Icu).hold = x.hold := by
  cases d <;> refine ⟨rfl, fun e he => ?_, rfl⟩ <;> cases e <;> simp_all [Icu.input, Icu.setInput]

/-- The state in which an accepted press is judged: its input PRESSED (R59). -/
def pressedAt (d : DeskInput) (time : Nat) (s : State) : State :=
  setInput d { s.icu.input d with filter := .pressed (some time), timer := .off } s

/-- The step of an accepted press. -/
theorem pressAccepted_next (d : DeskInput) (time : Nat) (s : State) (hf : (s.icu.input d).filter = .pressFilter time)
    (ht : (s.icu.input d).timer.on = true) :
    exec (.pressAccepted d) s = .next (refresh (acceptPress d time s)) := by
  have hc : (s.icu.input d).capture = some time := by simp [Input.capture, hf, ht]
  change execPressAccepted d s = _
  unfold execPressAccepted
  rw [hc]
  exact when_occurs _ s rfl

theorem judgesPresses_iff (s : State) :
    judgesPresses s = true ↔ s.suu.identity.role = .team ∧ s.suu.startUp = .joined ∧ s.suu.muted = false := by
  simp [judgesPresses, and_assoc]

/-- A press that no round judges changes its input alone (R61; log 16). -/
theorem acceptPress_silent (d : DeskInput) (time : Nat) (s : State)
    (h : ¬(s.suu.identity.role = .team ∧ s.suu.startUp = .joined ∧ s.suu.muted = false ∧ s.rng.phase ≠ .unsynced) ∨
      s.rng.format = .buzz ∧ d ≠ .buzz ∨ s.rng.format = .choice ∧ d = .buzz) :
    acceptPress d time s = pressedAt d time s := by
  change (if judgesPresses s then judge d time (pressedAt d time s) else pressedAt d time s) = _
  have hp : (pressedAt d time s).rng = s.rng := rfl
  split
  · rename_i hj
    obtain ⟨h1, h2, h3⟩ := (judgesPresses_iff s).mp hj
    unfold judge
    rw [hp]
    split
    · rfl
    · rename_i hu
      rcases h with h | ⟨hb, hd⟩ | ⟨hc, rfl⟩
      · exact absurd ⟨h1, h2, h3, hu⟩ h
      · rw [hb]
        cases d with
        | buzz => exact absurd rfl hd
        | _ => rfl
      · rw [hc]; rfl
  · rfl

/-- A key press in a CHOICE round is judged (R61). -/
theorem acceptPress_key (d : DeskInput) (key time : Nat) (s : State)
    (hj : s.suu.identity.role = .team ∧ s.suu.startUp = .joined ∧ s.suu.muted = false ∧ s.rng.phase ≠ .unsynced)
    (hf : s.rng.format = .choice) (hk : keyNumber d = some key) :
    acceptPress d time s = judgeKey key time (pressedAt d time s) := by
  obtain ⟨h1, h2, h3, hu⟩ := hj
  change (if judgesPresses s then judge d time (pressedAt d time s) else pressedAt d time s) = _
  rw [if_pos ((judgesPresses_iff s).mpr ⟨h1, h2, h3⟩)]
  unfold judge
  have hp : (pressedAt d time s).rng = s.rng := rfl
  rw [hp, if_neg hu, hf, hk]

/-- The tests of a key press, spelled out (R69, R70). -/
theorem choiceTests_iff (key time : Nat) (s : State) :
    choiceTests key time s = true ↔
      s.icu.record.jumpLockEnd ≤ time ∧ s.rng.phase = .live ∧ time < s.rng.closePoint ∧
        (s.rng.mode = .first ∧ s.icu.record.lastKey = 0 ∧ s.icu.record.pendingKey = 0 ∨
          s.rng.mode = .change ∧
            (if s.icu.record.pendingKey ≠ 0 then s.icu.record.pendingKey else s.icu.record.lastKey) ≠ key) := by
  unfold choiceTests keyAllowed comparedKey
  cases s.rng.mode <;> simp [and_assoc]

/-- The phases that judge presses, once a round is known (R61). -/
theorem judges_iff (p : Phase) (h : p ≠ .unsynced) : p.judges = true ↔ p ≠ .closing ∧ p ≠ .ended := by
  cases p <;> simp_all [Phase.judges]

/-- A CHOICE handed over changes the press record alone of the input capture unit. -/
theorem queueChoice_icu (key stamp : Nat) (s : State) :
    ∃ r, (queueChoice key stamp s).icu = { s.icu with record := r } := by
  unfold queueChoice
  dsimp only
  split
  · exact ⟨_, by rw [handOver_icu]; rfl⟩
  · exact ⟨_, by rw [handOver_icu]; rfl⟩
  · exact ⟨_, by simp only [choiceDropped, reportDrop, setRecord, State.withPnl_icu, State.withIcu_icu, handOver_icu]; rfl⟩
  all_goals exact ⟨s.icu.record, rfl⟩

theorem judgeKey_icu (key time : Nat) (s : State) : ∃ r, (judgeKey key time s).icu = { s.icu with record := r } := by
  unfold judgeKey
  split
  · exact ⟨s.icu.record, rfl⟩
  split
  · exact ⟨_, rfl⟩
  split
  · exact queueChoice_icu key _ s
  · exact ⟨s.icu.record, rfl⟩

/-- The CHOICE of a key press (R69). -/
abbrev choiceOf (key stamp : Nat) (s : State) : Content :=
  .choice (BitVec.ofNat 24 stamp) (byteOf key) (byteOf s.suu.identity.team)

/-- A CHOICE put in its empty place (R36, R69). -/
theorem queueChoice_queued (key stamp : Nat) (s : State)
    (h : handAnswer (choiceOf key stamp s) s = .queued) :
    queueChoice key stamp s =
      handOver (choiceOf key stamp s) .icu
        (setRecord { s.icu.record with pendingKey := key } s) := by
  unfold queueChoice
  dsimp only
  rw [h]

/-- A CHOICE that replaces the content of the one queued (R37, R70). -/
theorem queueChoice_replaced (key stamp : Nat) (s : State)
    (h : handAnswer (choiceOf key stamp s) s = .replaced) :
    queueChoice key stamp s =
      setQueue
        (s.lcu.queue.map fun g =>
          if g.place ≠ .choice then g
          else if g.inAttempt then { g with pending := some (choiceOf key stamp s) }
          else { g with content := choiceOf key stamp s, attempts := 0, round := none })
        (setRecord { s.icu.record with pendingKey := key } s) := by
  unfold queueChoice
  dsimp only
  rw [h]
  have h' : handAnswer (choiceOf key stamp s)
      (setRecord { s.icu.record with pendingKey := key } s) = .replaced := h
  unfold handOver
  rw [h']
  dsimp only
  congr 1
  refine List.map_congr_left fun g _ => ?_
  change (if g.place = .choice then replaceContent (choiceOf key stamp s) g else g) = _
  by_cases hg : g.place = .choice
  · rw [if_pos hg, if_neg (by simpa using hg)]; rfl
  · rw [if_neg hg, if_pos hg]

/-- A CHOICE dropped at once (R36, R71; log 36). -/
theorem queueChoice_dropped (key stamp : Nat) (s : State) (hx : s.lcu.tx.shut = true) :
    queueChoice key stamp s = choiceDropped (raise .txDropped s) := by
  have h : ∀ c, handAnswer c s = .dropped := fun c => if_pos hx
  unfold queueChoice handOver
  dsimp only
  rw [h]

/-- Behind a CHOICE marked for withdrawal nothing is handed (R38). -/
theorem queueChoice_already (key stamp : Nat) (s : State) (b : Bool)
    (h : handAnswer (choiceOf key stamp s) s = .already b) :
    queueChoice key stamp s = s := by
  unfold queueChoice
  dsimp only
  rw [h]

/-- The frame of an accepted press whose judging has left u. -/
theorem press_stepFrame (changed : List Block) (raised : BitVec 14) (s u : State) (hicu : .icu ∈ changed)
    (h : ∀ b, b ∉ changed → b ≠ .pnl → b ≠ .cmp → b ≠ .icu → b.same s u) (hp : .pnl ∉ changed → u.pnl = s.pnl)
    (hc : u.cmp = { s.cmp with flags := s.cmp.flags ||| raised }) (hq : u.pending = s.pending) :
    StepFrame changed raised s (refresh u) :=
  stepFrame_of changed raised s u (fun b hb h1 h2 => h b hb h1 h2 fun h3 => hb (h3 ▸ hicu)) hp
    (fun _ => by rw [hc]) (by rw [hc]) hq

/-- A key press of a judging phase before the arm is a jump (R63). -/
theorem judgeKey_jump (key time : Nat) (s : State) (hj : s.rng.phase.judges = true) (ht : time < s.rng.armTicks) :
    judgeKey key time s = jump s := by
  simp [judgeKey, hj, isJump, ht]

/-- A key press that passes its tests is handed over as a CHOICE (R69, R70). -/
theorem judgeKey_choice (key time : Nat) (s : State) (hj : s.rng.phase.judges = true) (ht : ¬time < s.rng.armTicks)
    (hc : choiceTests key time s = true) : judgeKey key time s = queueChoice key (time / s.rng.grain) s := by
  simp [judgeKey, hj, isJump, ht, hc, stampOf]

/-- Any other key press does nothing (R61). -/
theorem judgeKey_nothing (key time : Nat) (s : State) (hj : s.rng.phase.judges = true → ¬time < s.rng.armTicks)
    (hc : s.rng.phase.judges = true → choiceTests key time s = false) : judgeKey key time s = s := by
  cases h : s.rng.phase.judges
  · simp [judgeKey, h]
  · simp [judgeKey, h, isJump, hj h, hc h]

/-- The answers to a CHOICE at a TEAM station at work whose transmitter is not shut (R36 to R38). -/
theorem choice_answer (key stamp : Nat) (s : State) (hx : s.lcu.tx.shut = false) (hw : s.suu.startUp.atWork = true)
    (hr : s.suu.identity.role = .team) :
    (frameAt .choice s.lcu.queue = none → handAnswer (choiceOf key stamp s) s = .queued) ∧
      ∀ f, frameAt .choice s.lcu.queue = some f →
        (f.withdrawn = false → handAnswer (choiceOf key stamp s) s = .replaced) ∧
          (f.withdrawn = true → handAnswer (choiceOf key stamp s) s = .already f.inAttempt) := by
  refine ⟨fun hn => handAnswer_queued _ s hx hw (by rw [hr]; rfl) hn, fun f hf => ?_⟩
  have hf' : frameAt (choiceOf key stamp s).place s.lcu.queue = some f := hf
  have hp : s.suu.identity.role.hasPlace (choiceOf key stamp s).place = true := by rw [hr]; rfl
  unfold handAnswer
  rw [if_neg (by simp [hx]), if_neg (by simp [hw, hp]), hf']
  exact ⟨fun h => if_pos ⟨rfl, h⟩, fun h => if_neg (by simp [h])⟩

/-- Settles O52: what an accepted press leaves is `pressedAt`, judged by `judgeKey` in a CHOICE round. -/
theorem keyPressAccepted : Obligations.KeyPressAccepted := by
  intro d time s hf ht
  dsimp only
  have honly : ∀ u : State, (∃ r, u.icu = { (pressedAt d time s).icu with record := r }) →
      (refresh u).icu.input d = { s.icu.input d with filter := .pressed (some time), timer := .off } ∧
        (∀ e, e ≠ d → (refresh u).icu.input e = s.icu.input e) ∧ (refresh u).icu.hold = s.icu.hold := by
    rintro u ⟨r, hr⟩
    rw [refresh_icu, hr]
    exact setInput_input s.icu d _ r
  have hrec : (pressedAt d time s).icu.record = s.icu.record := setInput_record _ _ _
  have hframe : ∀ (changed : List Block) (u : State), u = (s.withIcu u.icu).withLcu u.lcu → .icu ∈ changed →
      (.lcu ∉ changed → u.lcu = s.lcu) → StepFrame changed 0 s (refresh u) := by
    intro changed u hu hi hl
    rw [hu]
    generalize u.icu = icu, u.lcu = lcu at hl ⊢
    refine press_stepFrame changed 0 s _ hi (fun b hb h1 h2 h3 => ?_) (fun _ => rfl) (by change s.cmp = _; simp) rfl
    cases b <;> simp_all [Block.same]
  refine ⟨fun h => ?_, fun key hj hfmt hk => ?_⟩
  · refine ⟨_, pressAccepted_next d time s hf ht, ?_⟩
    rw [acceptPress_silent d time s h]
    exact ⟨honly _ ⟨_, rfl⟩, hrec, hframe [.icu] _ rfl (by simp) fun _ => rfl⟩
  · refine ⟨_, pressAccepted_next d time s hf ht, ?_⟩
    rw [acceptPress_key d key time s hj hfmt hk]
    have hjudge := judges_iff s.rng.phase hj.2.2.2
    have htests := choiceTests_iff key time (pressedAt d time s)
    rw [hrec] at htests
    have hwork : (pressedAt d time s).suu.startUp.atWork = true := by
      change s.suu.startUp.atWork = true
      rw [hj.2.1]; rfl
    have hchoose : ∀ {Q : Prop}, (s.rng.phase ≠ .closing ∧ s.rng.phase ≠ .ended) ∧
        ¬((s.rng.phase ≠ .closing ∧ s.rng.phase ≠ .ended) ∧ time < s.rng.armTicks) ∧ Q →
        (Q → choiceTests key time (pressedAt d time s) = true) →
        judgeKey key time (pressedAt d time s) = queueChoice key (time / s.rng.grain) (pressedAt d time s) :=
      fun h hq => judgeKey_choice key time _ (hjudge.mpr h.1) (fun hlt => h.2.1 ⟨h.1, hlt⟩) (hq h.2.2)
    refine ⟨honly _ (judgeKey_icu key time _), fun h => ?_, fun h1 h2 => ?_, fun h hh hm hn => ?_, fun f h hh hm hfa => ?_,
      fun h hx => ?_⟩
    · rw [judgeKey_jump key time (pressedAt d time s) (hjudge.mpr h.1) h.2]
      refine ⟨?_, hframe [.icu] _ rfl (by simp) fun _ => rfl⟩
      simp [jump, setRecord, hrec]
      rfl
    · rw [judgeKey_nothing key time (pressedAt d time s) (fun hp hlt => h1 ⟨hjudge.mp hp, hlt⟩) fun hp => ?_]
      · exact ⟨hrec, hframe [.icu] _ rfl (by simp) fun _ => rfl⟩
      · by_contra hc
        exact h2 ⟨hjudge.mp hp, h1, htests.mp (by simpa using hc)⟩
    · rw [hchoose h htests.mpr]
      have ha := (choice_answer key (time / s.rng.grain) (pressedAt d time s) (not_shut hh hm) hwork hj.1).1 hn
      rw [queueChoice_queued _ _ _ ha]
      obtain ⟨hq, l, heq⟩ := handOver_queued (choiceOf key (time / s.rng.grain) (pressedAt d time s)) .icu
        (setRecord { (pressedAt d time s).icu.record with pendingKey := key } (pressedAt d time s)) ha
      rw [heq] at hq ⊢
      exact ⟨by rw [hrec]; rfl, hq, hframe [.icu, .lcu] _ rfl (by simp) (by simp)⟩
    · rw [hchoose h htests.mpr]
      have ha := (choice_answer key (time / s.rng.grain) (pressedAt d time s) (not_shut hh hm) hwork hj.1).2 f hfa
      refine ⟨fun hw => ?_, fun hw => ?_⟩
      · rw [queueChoice_replaced _ _ _ (ha.1 hw), hrec]
        exact ⟨rfl, rfl, hframe [.icu, .lcu] _ rfl (by simp) (by simp)⟩
      · rw [queueChoice_already _ _ _ _ (ha.2 hw)]
        exact ⟨hrec, hframe [.icu] _ rfl (by simp) fun _ => rfl⟩
    · rw [hchoose h htests.mpr, queueChoice_dropped _ _ (pressedAt d time s) ((shut_iff _).mpr hx)]
      refine ⟨?_, by rw [refresh_flash]; rfl,
        press_stepFrame [.icu, .pnl] _ s _ (by simp) (fun b hb h1 h2 h3 => ?_) (by simp) rfl rfl⟩
      · simp [choiceDropped, reportDrop, setRecord, hrec]
      · clear honly hframe hchoose htests
        cases b <;> simp_all [Block.same, pressedAt, setInput]

end Sys2Proof.Machine

namespace Sys2Proof.Machine

open Sys2Proof.Safety

/-! ### The own frame's TAKEN (R41, R42) -/

/-- At a station with no attempt in its slots a taking ends the frame at the line interface alone. -/
theorem takenAtLine_receiver (s : State) (h : s.lcu.tx ≠ .slots) : takenAtLine s = frameEnd s := by
  simp [takenAtLine, ownAttempt, h]

/-- What the TAKEN of the own frame leaves, for a frame of no page that holds no pending content (R11, R41, R42). -/
theorem takenAtLine_own (f : QFrame) (s : State) (hq : QueueSound s) (hx : s.lcu.tx = .slots) (hf : attempted s = some f)
    (hp : f.pending = none) (ht : ∀ n, f.place ≠ .tally n) :
    takenAtLine s =
      { s with
        suu :=
          if f.place = .hello ∧ s.suu.startUp = .joining then { s.suu with startUp := .joined, joinWait := .off } else s.suu
        lif := hunted s.lif
        lcu := lcuTaken s } := by
  have hg : goesAt .taken f = true := by simp [goesAt, hp]
  have hagain : ∀ u, againAt .taken f u = none := by
    intro u
    cases hpl : f.place <;> simp_all [againAt, dropsAt_taken]
  have hcnf : ∀ u, cnfAt .taken f u = u.cnf := by
    intro u
    cases hpl : f.place <;> simp_all [cnfAt, dropsAt_taken]
  have hrec : ∀ r, recordAt .taken f r = r := by simp [recordAt, dropsAt_taken]
  have hown : takenAtLine s = settleTx (attemptEnded .taken f (frameEnd s)) := by
    rw [← endAttempt_eq .taken f (frameEnd s) hq hf]
    simp [takenAtLine, ownAttempt, hx]
  have hended : attemptEnded .taken f (frameEnd s) =
      { frameEnd s with
        suu :=
          if f.place = .hello ∧ s.suu.startUp = .joining then { s.suu with startUp := .joined, joinWait := .off } else s.suu
        lcu := { lcuIdle s with queue := s.lcu.queue.filter fun g => !g.inAttempt } } := by
    simp [attemptEnded, queueAt, queueLeft, hg, hagain, hcnf, hrec, dropsAt_taken, raisedIf, frameEnd]
  rw [hown, hended]
  have hsettle : ∀ u : State, settleTx u = u.withLcu (settleTx u).lcu := fun u => rfl
  rw [hsettle, settleTx_lcu]
  simp only [lcuTaken, hx, if_true]
  rfl

/-- What the TAKEN of a frame of such a place leaves at its receiver and at its sender. -/
theorem takenAtLine_eq (p : Place) (f : Frame) (s : State) (hq : QueueSound s) (h : Takes p f s) (hp : p ≠ .choice)
    (ht : ∀ n, p ≠ .tally n) :
    takenAtLine s =
      { s with
        suu :=
          if p = .hello ∧ s.lcu.tx = .slots ∧ s.suu.startUp = .joining then
            { s.suu with startUp := .joined, joinWait := .off }
          else s.suu
        lif := hunted s.lif
        lcu := lcuTaken s } := by
  rcases h.2 with ⟨hx, -⟩ | ⟨-, hx, g, hg, hgp⟩
  · rw [takenAtLine_receiver s hx]
    have hl : lcuTaken s = lcuIdle s := if_neg hx
    rw [hl, if_neg fun h => hx h.2.1]
    rfl
  · have hg' : attempted s = some g := by simpa using hg
    have hpend : g.pending = none := by
      obtain ⟨-, -, ⟨-, -, hc, -⟩, -⟩ := attempted_sound s g hq hg'
      cases hpd : g.pending with
      | none => rfl
      | some c => exact absurd ((hc c (by simp [hpd])).2) (by rw [hgp]; exact hp)
    rw [takenAtLine_own g s hq hx hg' hpend (by rw [hgp]; exact ht), hgp]
    simp only [hx, true_and]

/-- A taking that passes its sender check: its owners' effect on what line and presence leave. The station's own frame and another
desk's are no duplicates (R13, R33). -/
theorem takes_allowed (p : Place) (f : Frame) (eff : State → State) (s : State) (h : Takes p f s)
    (ha : senderAllowed f.desk.toNat f.body = true) (he : ∀ x, (eff x).suu.identity = x.suu.identity) :
    takes f eff s = .next (refresh (eff (markHeard f.desk.toNat f.round.toNat (takenAtLine s)))) := by
  unfold takes
  rw [when_occurs _ _ h.1]
  rcases h.2 with ⟨hx, hd⟩ | ⟨-, hx, -⟩
  · rw [taking_received f eff s ⟨h.1, hx, hd⟩ he, if_pos ha, takenAtLine_receiver s hx]
  · have hown : ownAttempt s = true := by simp [ownAttempt, hx]
    simp [taking, checkDuplicate, ha, hown]

/-! ### A description of the sender (R155, R189, R190) -/

theorem describedTeam_eq (role team : Byte) :
    describedTeam role team =
      if roleOfCode role.toNat = .team ∧ 1 ≤ team.toNat ∧ team.toNat ≤ 16 then team.toNat else 0 := by
  simp [describedTeam, isTeam]

/-- Seating the teams that are seated already changes nothing (R155, R156). -/
theorem seated_again (s : State) (h : ScoresSound s) :
    ranked (s.scu.records.mapIdx fun i x => { x with seated := s.prs.seated.contains (i + 1) }) = s.scu.records := by
  obtain ⟨hlen, -, hseat, hrank⟩ := h
  have hsame : (s.scu.records.mapIdx fun i x => { x with seated := s.prs.seated.contains (i + 1) }) = s.scu.records := by
    refine List.ext_getElem (by simp) fun i h1 h2 => ?_
    have hi : (s.scu.records.map TeamRec.seated)[i]'(by simpa using h2) = s.prs.seated.contains (i + 1) := by
      simp [hseat]
    have hi' : s.scu.records[i].seated = s.prs.seated.contains (i + 1) := by simpa using hi
    rw [List.getElem_mapIdx, ← hi']
  rw [hsame]
  unfold ranked
  refine (List.map_congr_left fun x hx => ?_).trans (List.map_id _)
  rw [← hrank x hx]
  rfl

/-- A presence entry changed: the seated set that of the entries, seated fields and ranks worked out afresh (R155, R190). -/
theorem setEntry_sound (d : Nat) (x : PresEntry → PresEntry) (s : State) (h : ScoresSound s) :
    (setEntry d x s).prs = ⟨s.prs.entries.modify d x, seatedTeams (s.prs.entries.modify d x)⟩ ∧
      (setEntry d x s).scu.records =
        ranked
          (s.scu.records.mapIdx fun i y =>
            { y with seated := (seatedTeams (s.prs.entries.modify d x)).contains (i + 1) }) := by
  unfold setEntry
  dsimp only
  split
  · rename_i heq
    rw [heq, seated_again s h]
    exact ⟨rfl, rfl⟩
  · exact ⟨rfl, rfl⟩

/-- The heard-marking of a sender changes neither its role nor its team. -/
theorem entry_heard (entries : List PresEntry) (d r : Nat) :
    ((entries.modify d fun e => { e with heard := true, lastRound := r }).getD d .reset).role =
        (entries.getD d .reset).role ∧
      ((entries.modify d fun e => { e with heard := true, lastRound := r }).getD d .reset).team =
        (entries.getD d .reset).team := by
  rw [List.getD_eq_getElem?_getD, List.getD_eq_getElem?_getD, List.getElem?_modify]
  cases entries[d]? <;> simp

theorem raiseIf_flags (b : Bool) (e : Event) (s : State) :
    (raiseIf b e s).cmp = { s.cmp with flags := s.cmp.flags ||| raisedIf b e } := by
  cases b <;> simp [raiseIf, raise, raisedIf]

/-- PRESENCE_CHANGED raised for the marking or for the description is raised for either (R188, R189). -/
theorem raisedIf_or (a b : Bool) (e : Event) : raisedIf a e ||| raisedIf b e = raisedIf (a || b) e := by
  cases a <;> cases b <;> simp [raisedIf]

/-- Two states with the same parts are the same. -/
theorem state_eq : ∀ {s t : State}, s.suu = t.suu → s.sto = t.sto → s.lif = t.lif → s.lcu = t.lcu → s.rck = t.rck →
    s.icu = t.icu → s.rng = t.rng → s.clt = t.clt → s.cht = t.cht → s.scu = t.scu → s.cnf = t.cnf → s.prs = t.prs →
    s.pnl = t.pnl → s.cmp = t.cmp → s.ltx = t.ltx → s.pending = t.pending → s.free = t.free → s = t := by
  rintro ⟨⟩ ⟨⟩
  simp_all

/-- The sender marked heard and described: presence table, scoreboard and flags (R155, R188 to R190). -/
theorem describe_markHeard (d r : Nat) (role team : Byte) (extra : PresEntry → PresEntry) (s : State)
    (ht : TablesSound s) (hs : ScoresSound s) :
    let entries := s.prs.entries.modify d fun e =>
      extra { e with heard := true, lastRound := r, role := roleOfCode role.toNat, team := describedTeam role team }
    describe d role team extra (markHeard d r s) =
      { s with
        scu := ⟨ranked (s.scu.records.mapIdx fun i x => { x with seated := (seatedTeams entries).contains (i + 1) })⟩
        prs := ⟨entries, seatedTeams entries⟩
        cmp :=
          { s.cmp with
            flags := s.cmp.flags |||
              raisedIf
                (!(s.prs.entry d).heard || (s.prs.entry d).role != roleOfCode role.toNat ||
                  (s.prs.entry d).team != describedTeam role team)
                .presenceChanged } } := by
  obtain ⟨hscu, hprs, hcmp⟩ := markHeard_sound d r s ht
  have hs' : ScoresSound (markHeard d r s) := by
    unfold ScoresSound
    rw [hscu, hprs]
    exact hs
  obtain ⟨h1, h2⟩ := setEntry_sound d
    (fun e => extra { e with role := roleOfCode role.toNat, team := describedTeam role team }) _ hs'
  have hcomp : ((s.prs.entries.modify d fun e => { e with heard := true, lastRound := r }).modify d fun e =>
      extra { e with role := roleOfCode role.toNat, team := describedTeam role team }) =
      s.prs.entries.modify d fun e =>
        extra { e with heard := true, lastRound := r, role := roleOfCode role.toNat, team := describedTeam role team } := by
    rw [List.modify_modify_eq]; rfl
  rw [hprs, hcomp] at h1
  rw [hprs, hscu, hcomp] at h2
  have hcmp' : (describe d role team extra (markHeard d r s)).cmp =
      { s.cmp with
        flags := s.cmp.flags |||
          raisedIf
            (!(s.prs.entry d).heard || (s.prs.entry d).role != roleOfCode role.toNat ||
              (s.prs.entry d).team != describedTeam role team)
            .presenceChanged } := by
    obtain ⟨hrole, hteam⟩ := entry_heard s.prs.entries d r
    have hr : ((markHeard d r s).prs.entry d).role = (s.prs.entry d).role := by rw [hprs]; exact hrole
    have hm : ((markHeard d r s).prs.entry d).team = (s.prs.entry d).team := by rw [hprs]; exact hteam
    unfold describe
    rw [raiseIf_flags, setEntry_cmp, hcmp, hr, hm, Bool.or_assoc, ← raisedIf_or (!(s.prs.entry d).heard),
      ← BitVec.or_assoc]
  exact state_eq (by simp) (by simp) (by simp) (by simp) (by simp) (by simp) (by simp) (by simp) (by simp)
    ((raiseIf_scu _ _ _).trans (congrArg Scu.mk h2)) (by simp) ((raiseIf_prs _ _ _).trans h1) (by simp) hcmp' (by simp)
    (by simp) (by simp)

end Sys2Proof.Machine

namespace Sys2Proof.Machine

open Sys2Proof.Safety

/-! ### The pages of a working console (R170, R174) -/

/-- The line controller once a frame takes its place on a line that is not idle: an IDLE transmitter waits (R36, R41). -/
def queuedQuietly (f : QFrame) (x : Lcu) : Lcu :=
  { x with
    queue := insertFrame f x.queue
    tx := if x.tx = .idle then .waiting else x.tx
    history := if x.tx = .idle then entered [.waiting] x.history else x.history }

/-- A frame handed over on a line neither idle nor joinable only takes its place (R36, R40, R41). -/
theorem handOver_quiet (c : Content) (h : Hander) (s : State) (hl : lineIdle s = false ∧ joinable s = false)
    (ha : handAnswer c s = .queued) : handOver c h s = s.withLcu (queuedQuietly (fresh c h) s.lcu) := by
  unfold handOver
  rw [ha]
  change startOrWait (setQueue (insertFrame (fresh c h) s.lcu.queue) s) = _
  rcases startOrWait_cases (setQueue (insertFrame (fresh c h) s.lcu.queue) s) with
    ⟨h1, -, heq⟩ | ⟨-, hs, -⟩ | ⟨-, -, -, heq⟩
  · have hi : s.lcu.tx ≠ .idle := h1
    rw [heq, queuedQuietly, if_neg hi, if_neg hi]
    rfl
  · have hl' : lineIdle s = true ∨ joinable s = true := hs
    simp [hl.1, hl.2] at hl'
  · rw [heq, wait_eq]
    rfl

/-- A console at work on a line neither idle nor joinable, no frame of its queue in attempt. -/
structure Quiet (s : State) : Prop where
  console : s.suu.identity.role = .console
  work : s.suu.startUp.atWork = true
  line : lineIdle s = false ∧ joinable s = false
  rest : Resting s.lcu.queue

/-- The line controller once a page is asked for at a console so quiet. -/
def askPage (p : Fin 4) (x : Lcu) : Lcu :=
  if x.tx.shut = true ∨ (frameAt (.tally p) x.queue).isSome = true then x
  else queuedQuietly (fresh (.tally p none) .cnf) x

/-- A page asked for by a quiet console takes its place if that is empty (R36, R170). -/
theorem requestPage_quiet (p : Fin 4) (s : State) (h : Quiet s) : requestPage p s = s.withLcu (askPage p s.lcu) := by
  have hplace : s.suu.identity.role.hasPlace (.tally p) = true := by rw [h.console]; rfl
  unfold requestPage pageOutcome askPage
  by_cases hx : s.lcu.tx.shut = true
  · have ha : handAnswer (.tally p none) s = .dropped := if_pos hx
    rw [ha, if_pos (.inl hx)]
    rfl
  · have hx' : s.lcu.tx.shut = false := by simpa using hx
    cases hf : frameAt (.tally p) s.lcu.queue with
    | none =>
      have ha : handAnswer (.tally p none) s = .queued := handAnswer_queued _ s hx' h.work hplace hf
      rw [ha, if_neg (by simp [hx'])]
      exact handOver_quiet _ _ s h.line ha
    | some f =>
      have hrest : f.inAttempt = false := h.rest f (frameAt_some hf).1
      have ha : handAnswer (.tally p none) s = .already false := by
        simp [handAnswer, hx', h.work, hplace, Content.place, hf, hrest]
      rw [ha, if_pos (.inr rfl)]
      rfl

theorem Quiet.requestPage {s : State} (h : Quiet s) (p : Fin 4) : Quiet (requestPage p s) := by
  have hrest : Resting (askPage p s.lcu).queue := by
    unfold askPage
    split
    · exact h.rest
    · exact h.rest.insert _ rfl
  refine ⟨by simpa using h.console, by simpa using h.work, ?_, ?_⟩
  · simpa [lineIdle, joinable, edgePending] using h.line
  · rw [requestPage_quiet p s h]
    exact hrest

/-- The queue with a page asked for, under a transmitter that is neither IDLE nor shut. -/
def askQueue (q : List QFrame) (p : Fin 4) : List QFrame :=
  if (frameAt (.tally p) q).isSome then q else insertFrame (fresh (.tally p none) .cnf) q

theorem askPage_working (p : Fin 4) (x : Lcu) (hx : x.tx.shut = false) (hi : x.tx ≠ .idle) :
    askPage p x = { x with queue := askQueue x.queue p } := by
  unfold askPage askQueue queuedQuietly
  rw [hx, if_neg hi, if_neg hi]
  simp only [Bool.false_eq_true, false_or]
  split <;> rfl

theorem pages_working (x : Lcu) (ps : List (Fin 4)) (hx : x.tx.shut = false) (hi : x.tx ≠ .idle) :
    ps.foldl (fun y p => askPage p y) x = { x with queue := ps.foldl askQueue x.queue } := by
  induction ps generalizing x with
  | nil => rfl
  | cons p ps ih =>
    rw [List.foldl_cons, List.foldl_cons, askPage_working p x hx hi]
    exact ih { x with queue := askQueue x.queue p } hx hi

/-- The four requests together (R174). -/
theorem lcuPages_eq (x : Lcu) (h : x.tx = .idle → x.queue = []) :
    (List.finRange 4).foldl (fun y p => askPage p y) x = lcuPages x := by
  have hl : List.finRange 4 = [0, 1, 2, 3] := by decide
  change _ = if x.tx = .halted ∨ x.tx = .muted then x
    else { x with
      queue := (List.finRange 4).foldl askQueue x.queue
      tx := if x.tx = .idle then .waiting else x.tx
      history := if x.tx = .idle then entered [.waiting] x.history else x.history }
  by_cases hs : x.tx.shut = true
  · have ha : ∀ p, askPage p x = x := fun p => if_pos (.inl hs)
    rw [if_pos ((shut_iff _).mp hs), hl]
    simp only [List.foldl_cons, List.foldl_nil, ha]
  · have hs' : x.tx.shut = false := by simpa using hs
    rw [if_neg fun hn => hs ((shut_iff _).mpr hn)]
    by_cases hi : x.tx = .idle
    · have ha : askPage 0 x =
          { x with queue := askQueue x.queue 0, tx := .waiting, history := entered [.waiting] x.history } := by
        simp [askPage, askQueue, queuedQuietly, hi, h hi, TxState.shut, frameAt]
      rw [hl, List.foldl_cons, ha, pages_working _ _ rfl (by simp), if_pos hi, if_pos hi]
      rfl
    · rw [pages_working x _ hs' hi, if_neg hi, if_neg hi]

/-- All four pages asked for by a quiet console (R174). -/
theorem requestAllPages_quiet (s : State) (h : Quiet s) (hi : s.lcu.tx = .idle → s.lcu.queue = []) :
    requestAllPages s = s.withLcu (lcuPages s.lcu) := by
  have h1 := h.requestPage 0
  have h2 := h1.requestPage 1
  have h3 := h2.requestPage 2
  unfold requestAllPages
  rw [requestPage_quiet 3 _ h3, requestPage_quiet 2 _ h2, requestPage_quiet 1 _ h1, requestPage_quiet 0 _ h,
    ← lcuPages_eq _ hi]
  rfl

/-! ### PRESENT and HELLO taken (R155, R189, R193) -/

theorem canTake_work {f : Frame} {s : State} (h : canTake f s = true) : s.suu.startUp.atWork = true := by
  simp only [canTake, Bool.and_eq_true] at h
  obtain ⟨⟨⟨⟨hw, -⟩, -⟩, -⟩, -⟩ := h
  exact hw

/-- The station's transmitter once a frame has been taken is in no attempt (R32, R41). -/
theorem taken_rests (s u : State) (f : Frame) (hc : canTake f s = true) (hu : u.lcu = lcuTaken s) (hs : QueueSound u) :
    Resting u.lcu.queue ∧ (u.lcu.tx = .idle → u.lcu.queue = []) := by
  obtain ⟨-, -, ⟨hidle, -, hcount⟩, -⟩ := hs
  have hatt : attemptState u.lcu.tx = false := by
    rw [hu]
    unfold lcuTaken
    dsimp only
    split
    · dsimp only
      split <;> rfl
    · rename_i hx
      unfold canTake at hc
      cases htx : s.lcu.tx <;> simp_all [attemptState]
  refine ⟨(resting_iff _).mpr ?_, fun h => hidle (.inl h)⟩
  simpa [hatt] using hcount

/-- A frame with its sender described: what line, presence table and scoreboard hold. -/
theorem describedSender (p : Place) (f : Frame) (role team : Byte) (extra : PresEntry → PresEntry) (s : State)
    (ht : TablesSound s) (hs : ScoresSound s) (hq : QueueSound s) (h : Takes p f s) (hp : p ≠ .choice)
    (hp' : ∀ n, p ≠ .tally n) :
    let u := describe f.desk.toNat role team extra (markHeard f.desk.toNat f.round.toNat (takenAtLine s))
    let entries := s.prs.entries.modify f.desk.toNat fun e =>
      extra { e with
        heard := true, lastRound := f.round.toNat, role := roleOfCode role.toNat, team := describedTeam role team }
    u = { s with
      suu :=
        if p = .hello ∧ s.lcu.tx = .slots ∧ s.suu.startUp = .joining then { s.suu with startUp := .joined, joinWait := .off }
        else s.suu
      lif := hunted s.lif
      lcu := lcuTaken s
      scu := ⟨ranked (s.scu.records.mapIdx fun i x => { x with seated := (seatedTeams entries).contains (i + 1) })⟩
      prs := ⟨entries, seatedTeams entries⟩
      cmp :=
        { s.cmp with
          flags := s.cmp.flags |||
            raisedIf
              (!(s.prs.entry f.desk.toNat).heard || (s.prs.entry f.desk.toNat).role != roleOfCode role.toNat ||
                (s.prs.entry f.desk.toNat).team != describedTeam role team)
              .presenceChanged } } := by
  have hline := takenAtLine_eq p f s hq h hp hp'
  dsimp only
  rw [describe_markHeard f.desk.toNat f.round.toNat role team extra _ (by rw [hline]; exact ht) (by rw [hline]; exact hs),
    hline]

/-- The reply set of a roll in progress at a station at work (R193). -/
theorem addReply_eq (desk id : Nat) (s : State) (hw : s.suu.startUp.atWork = true) :
    addReply desk id s =
      s.withCnf
        (if s.suu.identity.role = .console ∧ s.cnf.rollState = .polling ∧ s.cnf.currentRoll = some id then
          { s.cnf with replySet := insertNat desk s.cnf.replySet }
         else s.cnf) := by
  have hc : consoleStation s = true ↔ s.suu.identity.role = .console := by simp [consoleStation, hw]
  unfold addReply
  simp only [hc]
  split <;> rfl

/-- Settles O45: `describedSender` says what every description leaves, a roll's reply and the pages asked for come on top. -/
theorem senderDescribed : Obligations.SenderDescribed := by
  intro desk round role team s ht hs hq
  dsimp only
  rw [← describedTeam_eq]
  refine ⟨fun id flags h hd => ?_, fun tag h => ?_⟩
  · have hw := canTake_work h.1
    have hallow : senderAllowed desk.toNat (.present role team id flags) = true := by
      simpa [senderAllowed] using fun h0 => hd (BitVec.eq_of_toNat_eq h0)
    refine ⟨_, takes_allowed .present _ _ s h hallow fun x => (presentEffect_keptSound desk role team id flags x).identity, ?_⟩
    unfold presentEffect
    rw [describedSender .present ⟨desk, round, .present role team id flags⟩ role team (presentExtra id flags) s ht hs hq h
      (by simp) (by simp), if_neg (by simp), addReply_eq desk.toNat id.toNat]
    case hw => exact hw
    refine ⟨⟨rfl, rfl, rfl, rfl⟩, rfl, rfl, stepFrame_of _ _ s _ (fun b hb h1 h2 => ?_) (fun _ => rfl) (fun _ => rfl) rfl rfl⟩
    cases b <;> simp_all [Block.same]
  · refine ⟨_, takes_allowed .hello _ _ s h rfl fun x => (helloEffect_keptSound desk role team tag x).identity, ?_⟩
    have hkept := (((takenAtLine_keptSound s).trans (markHeard_keptSound desk.toNat round.toNat _)).trans
      (describe_keptSound desk.toNat role team (fun e => { e with tag := tag }) _))
    have hu := describedSender .hello ⟨desk, round, .hello role team tag⟩ role team (fun e => { e with tag := tag }) s
      ht hs hq h (by simp) (by simp)
    unfold helloEffect
    dsimp only at hu ⊢
    generalize describe desk.toNat role team _ (markHeard desk.toNat round.toNat (takenAtLine s)) = u at hkept hu ⊢
    obtain ⟨hrest, hidle⟩ := taken_rests s u _ h.1 (by rw [hu]) (hkept.queue hq)
    have hsuu : u.suu =
        if s.lcu.tx = .slots ∧ s.suu.startUp = .joining then { s.suu with startUp := .joined, joinWait := .off } else s.suu := by
      rw [hu]
      simp
    have hwork : u.suu.startUp.atWork = true := hkept.atWork.trans (canTake_work h.1)
    have hconsole : consoleStation u = true ↔ s.suu.identity.role = .console := by
      simp [consoleStation, hwork, hkept.identity]
    have hpages : (if consoleStation u = true ∧ desk ≠ 0 then requestAllPages u else u) =
        u.withLcu
          (if s.suu.identity.role = .console ∧ desk ≠ 0 then lcuPages (lcuTaken s) else lcuTaken s) := by
      have hl : u.lcu = lcuTaken s := by rw [hu]
      simp only [hconsole]
      split
      · rename_i hc
        have hquiet : Quiet u :=
          ⟨(congrArg Identity.role hkept.identity).trans hc.1, hwork, by rw [hu]; simp [lineIdle, joinable, edgePending],
            hrest⟩
        rw [requestAllPages_quiet u hquiet hidle, hl]
      · rw [← hl]; rfl
    rw [hpages]
    generalize (if s.suu.identity.role = .console ∧ desk ≠ 0 then lcuPages (lcuTaken s) else lcuTaken s) = l
    refine ⟨⟨by rw [hu]; rfl, by rw [hu]; rfl, by rw [hu]; rfl, by rw [hu]; rfl⟩, by rw [← hsuu]; rfl, rfl,
      stepFrame_of _ _ s _ (fun b hb h1 h2 => ?_) (fun _ => by rw [hu]; rfl) (fun _ => by rw [hu]; rfl) (by rw [hu]; rfl)
      (by rw [hu]; rfl)⟩
    cases b <;> simp_all [Block.same]

end Sys2Proof.Machine

namespace Sys2Proof.Machine

open Sys2Proof.Safety

/-! ### What the owners of a frame leave alone (R33, R42)

Beside `KeptSound`: no owner touches panel, line interface or waiting commands, and once a frame has been taken no owner fills the
frame's place again, starts an attempt or drops a frame. -/

/-- A station whose transmitter is IDLE or WAITING on a line neither idle nor joinable, with a place empty. -/
structure Settled (p : Place) (dropped : Bool) (s : State) : Prop where
  line : lineIdle s = false ∧ joinable s = false
  tx : s.lcu.tx = .idle ∨ s.lcu.tx = .waiting
  empty : frameAt p s.lcu.queue = none
  flag : s.flagSet .txDropped = dropped

/-- What an owner's effect keeps, seen from a place it does not hand to. -/
structure OwnerKeeps (p : Place) (s t : State) : Prop where
  pnl : t.pnl = s.pnl
  pending : t.pending = s.pending
  lif : t.lif = s.lif
  settled : ∀ d, Settled p d s → Settled p d t

theorem OwnerKeeps.refl (p : Place) (s : State) : OwnerKeeps p s s := ⟨rfl, rfl, rfl, fun _ => id⟩

theorem OwnerKeeps.trans {p : Place} {s t u : State} (h : OwnerKeeps p s t) (k : OwnerKeeps p t u) : OwnerKeeps p s u :=
  ⟨k.pnl.trans h.pnl, k.pending.trans h.pending, k.lif.trans h.lif, fun d => k.settled d ∘ h.settled d⟩

/-- An effect that leaves line controller, line interface, panel and the flag TX_DROPPED alone keeps all of it. -/
theorem OwnerKeeps.of_same {p : Place} {s t : State} (hpnl : t.pnl = s.pnl) (hpending : t.pending = s.pending)
    (hlif : t.lif = s.lif) (hlcu : t.lcu = s.lcu) (hflag : t.flagSet .txDropped = s.flagSet .txDropped) :
    OwnerKeeps p s t := by
  refine ⟨hpnl, hpending, hlif, fun d h => ⟨?_, ?_, ?_, hflag.trans h.flag⟩⟩
  · simpa [lineIdle, joinable, edgePending, hlif] using h.line
  · rw [hlcu]; exact h.tx
  · rw [hlcu]; exact h.empty

theorem flagSet_raise (e : Event) (s : State) (h : e ≠ .txDropped) :
    (raise e s).flagSet .txDropped = s.flagSet .txDropped := by
  have hbit : e.flag.getLsbD Event.txDropped.bit = false := by
    revert h
    cases e <;> decide
  simp [State.flagSet, raise, hbit]

section
variable {p : Place}

theorem raise_keeps (e : Event) (s : State) (h : e ≠ .txDropped) : OwnerKeeps p s (raise e s) :=
  .of_same rfl rfl rfl rfl (flagSet_raise e s h)

theorem raiseIf_keeps (b : Bool) (e : Event) (s : State) (h : e ≠ .txDropped) : OwnerKeeps p s (raiseIf b e s) := by
  cases b
  · exact .refl p s
  · exact raise_keeps e s h

theorem OwnerKeeps.raised {s t : State} (e : Event) (he : e ≠ .txDropped) (h : OwnerKeeps p s t) :
    OwnerKeeps p s (raise e t) :=
  h.trans (raise_keeps e t he)

/-- A withdrawn frame's hander tells the panel nothing (R39). -/
theorem told_withdrawn_keeps (f : QFrame) (s : State) : OwnerKeeps p s (told .withdrawn f s) := by
  refine .of_same ?_ (by simp) (by simp) (told_withdrawn_lcu f s) ?_ <;> unfold told <;> split <;> simp_all [State.flagSet]

/-- A queue whose places are all places of another has no frame where the other has none. -/
theorem frameAt_empty {q r : List QFrame} (h : ∀ f ∈ r, ∃ g ∈ q, f.place = g.place) (hn : frameAt p q = none) :
    frameAt p r = none := by
  refine frameAt_none.mpr fun f hf => ?_
  obtain ⟨g, hg, hgp⟩ := h f hf
  rw [hgp]
  exact frameAt_none.mp hn g hg

theorem withdraw_keeps (o : Place) (s : State) : OwnerKeeps p s (withdraw o s) := by
  unfold withdraw
  split
  · exact .refl p s
  · split
    · refine ⟨rfl, rfl, rfl, fun d h => ⟨h.line, h.tx, frameAt_empty (fun f hf => ?_) h.empty, h.flag⟩⟩
      obtain ⟨g, hg, rfl⟩ := List.mem_map.mp hf
      exact ⟨g, hg, by split <;> rfl⟩
    · rename_i f _ _
      have hremoved : OwnerKeeps p s (setQueue (removeAt o s.lcu.queue) s) :=
        ⟨rfl, rfl, rfl, fun d h => ⟨h.line, h.tx,
          frameAt_empty (fun g hg => ⟨g, List.filter_sublist.mem hg, rfl⟩) h.empty, h.flag⟩⟩
      have ht := hremoved.trans (told_withdrawn_keeps f _)
      dsimp only
      split
      · exact ht.trans ⟨rfl, rfl, rfl, fun d h => ⟨h.line, .inl rfl, h.empty, h.flag⟩⟩
      · exact ht

theorem withdrawOwn_keeps (s : State) : OwnerKeeps p s (withdrawOwn s) :=
  ((withdraw_keeps .claim s).trans (withdraw_keeps .choice _)).trans (withdraw_keeps .pass _)

/-! ### The round engine -/

theorem withRng_keeps (r : Rng) (s : State) : OwnerKeeps p s (s.withRng r) := .of_same rfl rfl rfl rfl rfl

theorem enterEnded_keeps_owner (s : State) : OwnerKeeps p s (enterEnded s) :=
  .raised .roundEnded (by decide)
    (OwnerKeeps.trans
      (t := (s.withRng { s.rng with phase := .ended, answerRunning := false }).withRck { s.rck with running := false })
      (.of_same rfl rfl rfl rfl rfl) (withdrawOwn_keeps _))

theorem grant_keeps (s : State) : OwnerKeeps p s (grant s) := by
  unfold grant
  split
  · exact .refl p s
  · exact .raised .turnGranted (by decide) (.of_same rfl rfl rfl rfl rfl)

theorem advance_keeps_owner (s : State) : OwnerKeeps p s (advance s) := by
  unfold advance
  split
  · exact withRng_keeps _ s
  split
  · exact grant_keeps s
  split
  · exact enterEnded_keeps_owner s
  · exact .refl p s

theorem phaseAfterTurn_keeps (o : TurnOutcome) (s : State) : OwnerKeeps p s (phaseAfterTurn o s) := by
  unfold phaseAfterTurn
  split
  · exact .refl p s
  split
  · exact enterEnded_keeps_owner s
  · exact withRng_keeps _ s

theorem closeTurn_keeps (t : Nat) (o : TurnOutcome) (s : State) : OwnerKeeps p s (closeTurn t o s) :=
  .raised .turnEnded (by decide) (.of_same rfl rfl rfl rfl rfl)

theorem align_keeps (t m : Nat) (s : State) : OwnerKeeps p s (align t m s) := by
  unfold align
  split
  · exact .refl p s
  · exact .raised .diverged (by decide) (.of_same rfl rfl rfl rfl rfl)

/-! ### Scores and presence -/

theorem commitScores_keeps (r : List TeamRec) (s : State) : OwnerKeeps p s (commitScores r s) :=
  OwnerKeeps.trans (t := s.withScu ⟨rankAll r⟩) (.of_same rfl rfl rfl rfl rfl) (raiseIf_keeps _ .scoreChanged _ (by decide))

theorem takeCheckTotal_keeps (team : Nat) (c : Int) (s : State) : OwnerKeeps p s (takeCheckTotal team c s) := by
  unfold takeCheckTotal
  split
  · exact .refl p s
  · exact (commitScores_keeps _ s).trans (raiseIf_keeps _ .diverged _ (by decide))

theorem fullVerdict_keeps (t m : Nat) (o : TurnOutcome) (c : Int) (s : State) : OwnerKeeps p s (fullVerdict t m o c s) :=
  (((((align_keeps t m s).trans (withRng_keeps _ _)).trans (closeTurn_keeps m o _)).trans (commitScores_keeps _ _)).trans
    (takeCheckTotal_keeps m c _)).trans (phaseAfterTurn_keeps o _)

theorem describe_keeps (d : Nat) (role team : Byte) (x : PresEntry → PresEntry) (s : State) :
    OwnerKeeps p s (describe d role team x s) :=
  (OwnerKeeps.of_same (by simp) (by simp) (by simp) (by simp) (by simp [State.flagSet])).trans
    (raiseIf_keeps _ .presenceChanged _ (by decide))

/-! ### Hand-overs -/

theorem handOver_keeps (c : Content) (h : Hander) (s : State) (hc : c.place ≠ p) : OwnerKeeps p s (handOver c h s) := by
  refine ⟨by simp, by simp, by simp, fun d hs => ?_⟩
  have hshut : s.lcu.tx.shut = false := by rcases hs.tx with h | h <;> rw [h] <;> rfl
  rcases handAnswer_cases c s with ⟨-, hx⟩ | ⟨-, ha | ⟨-, -, ⟨ha, -⟩ | ⟨ha, -⟩ | ⟨b, ha⟩⟩⟩
  · simp [hshut] at hx
  · unfold handOver
    rw [ha]
    exact hs
  · rw [handOver_quiet c h s hs.line ha]
    refine ⟨hs.line, .inr ?_, frameAt_none.mpr fun f hf => ?_, hs.flag⟩
    · rcases hs.tx with htx | htx <;> simp [queuedQuietly, htx]
    · rcases (mem_insertFrame _ _ _).mp hf with rfl | hf
      · exact hc
      · exact frameAt_none.mp hs.empty f hf
  · unfold handOver
    rw [ha]
    refine ⟨hs.line, hs.tx, frameAt_empty (fun f hf => ?_) hs.empty, hs.flag⟩
    obtain ⟨g, hg, rfl⟩ := List.mem_map.mp hf
    refine ⟨g, hg, ?_⟩
    unfold replaceContent
    (repeat' split) <;> rfl
  · unfold handOver
    rw [ha]
    exact hs

theorem requestPage_keeps (n : Fin 4) (s : State) (hp : ∀ n, p ≠ .tally n) : OwnerKeeps p s (requestPage n s) := by
  unfold requestPage
  split
  · exact handOver_keeps _ _ s (hp n).symm
  · exact .of_same rfl rfl rfl rfl rfl
  all_goals exact .refl p s

theorem requestAllPages_keeps (s : State) (hp : ∀ n, p ≠ .tally n) : OwnerKeeps p s (requestAllPages s) :=
  (((requestPage_keeps 0 s hp).trans (requestPage_keeps 1 _ hp)).trans (requestPage_keeps 2 _ hp)).trans
    (requestPage_keeps 3 _ hp)

/-! ### The owners' effects -/

theorem reachArm_keeps (s : State) : OwnerKeeps p s (reachArm s) := by
  unfold reachArm
  split
  · exact (withRng_keeps _ s).trans (advance_keeps_owner _)
  · exact .refl p s

theorem openEffect_keeps (round : Byte) (b : OpenBlock) (s : State) : OwnerKeeps p s (openEffect round b s) := by
  refine (withdrawOwn_keeps s).trans ?_
  unfold openEffect
  generalize withdrawOwn s = t
  refine OwnerKeeps.trans ?_ (reachArm_keeps _)
  exact .raised .roundOpened (by decide) (.of_same rfl rfl rfl rfl rfl)

theorem closeEffect_keeps (round : Byte) (point : Triple) (s : State) : OwnerKeeps p s (closeEffect round point s) := by
  unfold closeEffect
  split
  · dsimp only
    split
    · exact (withRng_keeps _ s).trans (enterEnded_keeps_owner _)
    · exact (withRng_keeps _ s).trans (advance_keeps_owner _)
  · exact .refl p s

theorem verdictAtConsole_keeps (own : Bool) (s : State) : OwnerKeeps p s (verdictAtConsole own s) := by
  unfold verdictAtConsole
  split
  · exact .of_same rfl rfl rfl rfl rfl
  · exact .refl p s

theorem verdictEffect_keeps (own : Bool) (round turn team outcome : Byte) (check : Half) (s : State) :
    OwnerKeeps p s (verdictEffect own round turn team outcome check s) := by
  unfold verdictEffect
  split
  · exact verdictAtConsole_keeps own s
  · exact (takeCheckTotal_keeps _ _ s).trans (verdictAtConsole_keeps own _)
  · exact ((fullVerdict_keeps _ _ _ _ s).trans (verdictAtConsole_keeps own _)).trans (advance_keeps_owner _)

theorem supersede_keeps (turn : Nat) (s : State) : OwnerKeeps p s (supersede turn s) := by
  unfold supersede
  split
  · exact .raised .verdictSuperseded (by decide) ((withdraw_keeps .verdict s).trans (.of_same rfl rfl rfl rfl rfl))
  · exact .refl p s

theorem passEffect_keeps (round turn team : Byte) (s : State) : OwnerKeeps p s (passEffect round turn team s) := by
  unfold passEffect
  split
  · have hended : OwnerKeeps p s (endTurnByPass team.toNat s) :=
      (closeTurn_keeps team.toNat .pass s).trans (phaseAfterTurn_keeps .pass _)
    exact (hended.trans (supersede_keeps turn.toNat _)).trans (advance_keeps_owner _)
  · exact .refl p s

theorem claimAtList_keeps (d r x m : Nat) (s : State) : OwnerKeeps p s (claimAtList d r x m s) := by
  unfold claimAtList
  split
  · exact .of_same rfl rfl rfl rfl rfl
  · exact .refl p s

theorem claimAtDesk_keeps (d r x m : Nat) (s : State) : OwnerKeeps p s (claimAtDesk d r x m s) := by
  unfold claimAtDesk
  split
  · exact .of_same rfl rfl rfl rfl rfl
  split
  · exact withdraw_keeps .claim s
  · exact .refl p s

theorem claimEffect_keeps (desk : Desk) (round : Byte) (stamp : Triple) (team : Byte) (s : State) :
    OwnerKeeps p s (claimEffect desk round stamp team s) :=
  ((claimAtList_keeps _ _ _ _ s).trans (claimAtDesk_keeps _ _ _ _ _)).trans (advance_keeps_owner _)

theorem choiceEffect_keeps (desk : Desk) (round : Byte) (stamp : Triple) (key team : Byte) (s : State) :
    OwnerKeeps p s (choiceEffect desk round stamp key team s) := by
  unfold choiceEffect choiceAtDesk choiceAtTable
  (repeat' split) <;> exact .of_same rfl rfl rfl rfl rfl

theorem tallyEffect_keeps (desk : Desk) (page : Byte) (totals : List Half) (s : State) :
    OwnerKeeps p s (tallyEffect desk page totals s) := by
  unfold tallyEffect
  split
  · exact (commitScores_keeps _ s).trans (raiseIf_keeps _ .diverged _ (by decide))
  · exact .refl p s

theorem consolePages_keeps (s : State) (hp : ∀ n, p ≠ .tally n) :
    OwnerKeeps p s (if consoleStation s then requestAllPages s else s) := by
  split
  · exact requestAllPages_keeps s hp
  · exact .refl p s

theorem revealEffect_keeps (round key : Byte) (s : State) (hp : ∀ n, p ≠ .tally n) :
    OwnerKeeps p s (revealEffect round key s) := by
  unfold revealEffect
  split
  · have hchoice : OwnerKeeps p s (withdraw .choice (s.withRng { s.rng with correctKey := some key.toNat })) :=
      (withRng_keeps _ s).trans (withdraw_keeps .choice _)
    dsimp only
    generalize withdraw .choice (s.withRng { s.rng with correctKey := some key.toNat }) = t at hchoice ⊢
    have hended : OwnerKeeps p s (enterEnded (if key = 0 then t else scoreReveal key.toNat t)) := by
      split
      · exact hchoice.trans (enterEnded_keeps_owner t)
      · exact (hchoice.trans (commitScores_keeps _ t)).trans (enterEnded_keeps_owner _)
    exact hended.trans (consolePages_keeps _ hp)
  · exact .refl p s

theorem rollEffect_keeps (id window : Byte) (s : State) (hp : p ≠ .present) : OwnerKeeps p s (rollEffect id window s) := by
  have hpoll : OwnerKeeps p s (startPolling id.toNat window.toNat s) := by
    unfold startPolling
    split
    · exact .of_same rfl rfl rfl rfl rfl
    · exact .refl p s
  unfold rollEffect
  dsimp only
  split
  · exact hpoll.trans (handOver_keeps _ _ _ hp.symm)
  · exact hpoll

theorem presentEffect_keeps (desk : Desk) (role team id flags : Byte) (s : State) :
    OwnerKeeps p s (presentEffect desk role team id flags s) := by
  refine (describe_keeps desk.toNat role team (presentExtra id flags) s).trans ?_
  unfold presentEffect addReply
  split
  · exact .of_same rfl rfl rfl rfl rfl
  · exact .refl p _

theorem helloEffect_keeps (desk : Desk) (role team : Byte) (tag : Half) (s : State) (hp : ∀ n, p ≠ .tally n) :
    OwnerKeeps p s (helloEffect desk role team tag s) := by
  unfold helloEffect
  dsimp only
  split
  · exact (describe_keeps _ role team _ s).trans (requestAllPages_keeps _ hp)
  · exact describe_keeps _ role team _ s

/-! ### The eleven classes at one name (R33) -/

theorem ownersDo_keptSound (f : Frame) (s : State) : KeptSound s (ownersDo f s) := by
  obtain ⟨desk, round, body⟩ := f
  cases body with
  | close q => exact closeEffect_keptSound round q s
  | verdict t m o c => exact verdictEffect_keptSound false round t m o c s
  | pass t m => exact passEffect_keptSound round t m s
  | claim x m => exact claimEffect_keptSound desk round x m s
  | choice x k m => exact choiceEffect_keptSound desk round x k m s
  | tally n a b c d => exact tallyEffect_keptSound desk n [a, b, c, d] s
  | reveal k => exact revealEffect_keptSound round k s
  | open_ b => exact openEffect_keptSound round b s
  | roll i w => exact rollEffect_keptSound i w s
  | present r m i g => exact presentEffect_keptSound desk r m i g s
  | hello r m t => exact helloEffect_keptSound desk r m t s

/-- Owners hand over a PRESENT or pages of totals alone. -/
theorem ownersDo_keeps (f : Frame) (s : State) : OwnerKeeps .claim s (ownersDo f s) := by
  obtain ⟨desk, round, body⟩ := f
  cases body with
  | close q => exact closeEffect_keeps round q s
  | verdict t m o c => exact verdictEffect_keeps false round t m o c s
  | pass t m => exact passEffect_keeps round t m s
  | claim x m => exact claimEffect_keeps desk round x m s
  | choice x k m => exact choiceEffect_keeps desk round x k m s
  | tally n a b c d => exact tallyEffect_keeps desk n [a, b, c, d] s
  | reveal k => exact revealEffect_keeps round k s (by simp)
  | open_ b => exact openEffect_keeps round b s
  | roll i w => exact rollEffect_keeps i w s (by simp)
  | present r m i g => exact presentEffect_keeps desk r m i g s
  | hello r m t => exact helloEffect_keeps desk r m t s (by simp)

/-- A taking at a station that did not send the frame hands it to the owners of its class. -/
theorem exec_takingOf (f : Frame) (s : State) (hx : s.lcu.tx ≠ .slots) :
    exec (takingOf f) s = takes f (ownersDo f) s := by
  obtain ⟨desk, round, body⟩ := f
  cases body with
  | verdict t m o c =>
    have hown : ownAttempt s = false := by simp [ownAttempt, hx]
    change takes ⟨desk, round, .verdict t m o c⟩ (verdictEffect (ownAttempt s) round t m o c) s = _
    rw [hown]
    rfl
  | _ => rfl

end

end Sys2Proof.Machine

namespace Sys2Proof.Machine

open Sys2Proof.Safety

/-! ### The queue emptied, its handers told (R14, R43, R49, R50) -/

/-- Does a queue hold a frame of this place? -/
def queued (p : Place) (q : List QFrame) : Bool := (frameAt p q).isSome

@[simp] theorem queued_nil (p : Place) : queued p [] = false := rfl

@[simp] theorem queued_cons (p : Place) (f : QFrame) (q : List QFrame) :
    queued p (f :: q) = (decide (f.place = p) || queued p q) := by
  by_cases h : f.place = p <;> simp [queued, frameAt, h]

/-- The state once every frame of a queue has been dropped and its hander told (R43; logs 15, 41). -/
def framesDropped (q : List QFrame) (s : State) : State :=
  { s with
    suu :=
      if queued .hello q = true ∧ s.suu.startUp = .joining then { s.suu with startUp := .joined, joinWait := .off }
      else s.suu
    icu :=
      { s.icu with
        record :=
          { s.icu.record with
            ownClaim := if queued .claim q then .dropped else s.icu.record.ownClaim
            claimStamp := if queued .claim q then none else s.icu.record.claimStamp
            pendingKey := if queued .choice q then 0 else s.icu.record.pendingKey } }
    rng :=
      { s.rng with
        answerRunning := s.rng.answerRunning ||
          (queued .verdict q && s.cnf.verdictKind == .host && s.cnf.verdictPending == some s.rng.turn &&
            s.rng.answering.isSome && s.rng.phase == .turn) }
    cnf :=
      { s.cnf with
        verdictPending := if queued .verdict q then none else s.cnf.verdictPending
        dirty := s.cnf.dirty.filter fun n => !((List.finRange 4).any fun p => p.val == n && queued (.tally p) q) }
    pnl :=
      { s.pnl with
        flash := if queued .claim q || queued .choice q || queued .pass q then .running 2000000 else s.pnl.flash }
    cmp := { s.cmp with flags := s.cmp.flags ||| raisedIf (!q.isEmpty) .txDropped } }

theorem framesDropped_nil (s : State) : framesDropped [] s = s := by
  have hnone : ((List.finRange 4).any fun _ => false) = false := by decide
  simp [framesDropped, raisedIf, hnone]

/-- A flag raised for one frame is raised for all. -/
theorem raisedIf_again (x : BitVec 14) (b : Bool) (e : Event) : x ||| e.flag ||| raisedIf b e = x ||| e.flag := by
  cases b <;> simp [raisedIf, BitVec.or_assoc]

theorem any_or {α : Type} (l : List α) (f g : α → Bool) : (l.any fun x => f x || g x) = (l.any f || l.any g) := by
  induction l with
  | nil => rfl
  | cons x l ih => simp only [List.any_cons, ih]; ac_rfl

/-- The dirty marks that go with one page and those that go with others (R173). -/
theorem dirty_filtered (p : Fin 4) (q : List QFrame) (dirty : List Nat) :
    (dirty.filter fun n => (!((List.finRange 4).any fun m => m.val == n && queued (.tally m) q)) && n != p.val) =
      dirty.filter fun n => !((List.finRange 4).any fun m => m.val == n && (decide (p = m) || queued (.tally m) q)) := by
  refine List.filter_congr fun n _ => ?_
  have hp : ((List.finRange 4).any fun m => m.val == n && decide (p = m)) = (n == p.val) := by
    rw [Bool.eq_iff_iff]
    simp only [List.any_eq_true, List.mem_finRange, true_and, Bool.and_eq_true, beq_iff_eq, decide_eq_true_eq]
    exact ⟨fun ⟨m, hm, hpm⟩ => by rw [hpm, hm], fun h => ⟨p, h.symm, rfl⟩⟩
  simp only [Bool.and_or_distrib_left, any_or, hp]
  cases h : n == p.val <;> simp [bne, h]

/-- A VERDICT dropped by the emptying: a HOST verdict's turn in progress has its clock running again (R86, R165). -/
theorem verdictDropped_emptied (s : State) :
    verdictDropped true s =
      (s.withCnf { s.cnf with verdictPending := none }).withRng
        { s.rng with
          answerRunning := s.rng.answerRunning ||
            (s.cnf.verdictKind == .host && s.cnf.verdictPending == some s.rng.turn && s.rng.answering.isSome &&
              s.rng.phase == .turn) } := by
  unfold verdictDropped markerCurrent
  cases hk : s.cnf.verdictKind
  · by_cases hm : (s.cnf.verdictPending == some s.rng.turn && s.rng.answering.isSome) = true ∧ s.rng.phase = .turn
    · simp [hm, clearMarker]
    · rw [if_neg hm]
      have hf : (s.cnf.verdictPending == some s.rng.turn && s.rng.answering.isSome && s.rng.phase == .turn) = false := by
        simpa using hm
      simp [clearMarker, hf]
      rfl
  · have ha : (VerdictKind.automatic == VerdictKind.host) = false := rfl
    simp [clearMarker, ha]
    rfl

theorem framesDropped_cons (f : QFrame) (q : List QFrame) (s : State) :
    framesDropped q (dropFrame s f) = framesDropped (f :: q) s := by
  have hflag : raisedIf true Event.txDropped = Event.txDropped.flag := rfl
  cases hpl : f.place with
  | claim =>
    simp [dropFrame, told, hpl, framesDropped, claimDropped, reportDrop, setRecord, raise, raisedIf_again, hflag,
      Config.flashUs]
  | choice =>
    simp [dropFrame, told, hpl, framesDropped, choiceDropped, reportDrop, setRecord, raise, raisedIf_again, hflag,
      Config.flashUs]
  | pass => simp [dropFrame, told, hpl, framesDropped, reportDrop, raise, raisedIf_again, hflag, Config.flashUs]
  | tally p => simp [dropFrame, told, hpl, framesDropped, raise, raisedIf_again, hflag, clearDirty, dirty_filtered]
  | hello => 
    by_cases hj : s.suu.startUp = .joining <;>
    simp [dropFrame, told, hpl, framesDropped, raise, raisedIf_again, hflag, enterJoined, hj]
  | verdict => simp [dropFrame, told, hpl, framesDropped, raise, raisedIf_again, hflag, verdictDropped_emptied]
  | _ => simp [dropFrame, told, hpl, framesDropped, raise, raisedIf_again, hflag]

theorem foldDrop_eq (q : List QFrame) (s : State) : q.foldl dropFrame s = framesDropped q s := by
  induction q generalizing s with
  | nil => exact (framesDropped_nil s).symm
  | cons f q ih => rw [List.foldl_cons, ih, framesDropped_cons]

/-! ### The entry to MUTED (R13, R14, R50) -/

theorem enterJoined_eq (s : State) :
    enterJoined s =
      s.withSuu
        (if s.suu.startUp = .joining then { s.suu with startUp := .joined, joinWait := .off } else s.suu) := by
  unfold enterJoined
  split <;> rfl

theorem holds_eq (p : Place) (s : State) : holds p s = queued p s.lcu.queue := rfl

/-- JOINED entered with the queue emptied: whether a HELLO was in it makes no difference (R11, R14, R49). -/
theorem joined_dropped (q : List QFrame) (s : State) :
    (enterJoined (framesDropped q s)).suu =
      if s.suu.startUp = .joining then { s.suu with startUp := .joined, joinWait := .off } else s.suu := by
  rw [enterJoined_eq]
  by_cases hj : s.suu.startUp = .joining <;> by_cases hh : queued .hello q = true <;> simp [framesDropped, hj, hh]

/-- The muted marker set where it was not, by a duplicate. -/
theorem mute_eq (u : State) (hm : u.suu.muted = false) :
    let m := (raise .duplicate u).withSuu { u.suu with muted := true }
    mute (raise .duplicate u) =
      enterJoined
        (if u.lcu.tx = .halted then m
         else framesDropped u.lcu.queue (setQueue [] (stopTimers (enterTx .muted m)))) := by
  have hm' : (raise .duplicate u).suu.muted = false := hm
  unfold mute enterMuted emptyQueue
  rw [hm', if_neg (by simp)]
  simp only [foldDrop_eq]
  rfl

/-- Of panel and port a mute changes the drop flash and the event flags alone. -/
theorem mute_ports (u : State) (hm : u.suu.muted = false) :
    let t := mute (raise .duplicate u)
    t.pnl = { u.pnl with flash := t.pnl.flash } ∧ t.cmp = { u.cmp with flags := t.cmp.flags } := by
  dsimp only
  rw [mute_eq u hm]
  dsimp only
  split <;> simp [framesDropped, raise]

/-- A duplicate at a station not yet muted (R13, R14, R50). -/
theorem mute_mutes (u s : State) (hm : u.suu.muted = false) (hp : u.pnl = s.pnl) (hq : u.pending = s.pending) :
    Mutes u s (refresh (mute (raise .duplicate u))) := by
  have hr : (TxState.muted == TxState.recovering) = false := rfl
  obtain ⟨hpnl, hcmp⟩ := mute_ports u hm
  rw [hp] at hpnl
  refine ⟨fun hx => ?_, fun hx => ?_, ?_, ?_, by simp [hq], refresh_outputs _, fun b hb => ?_⟩
  · rw [mute_eq u hm]
    dsimp only
    rw [if_neg hx]
    refine ⟨?_, ⟨?_, ?_, ?_, ?_, ?_, ?_⟩, ?_⟩
    · simp [framesDropped, setQueue, stopTimers, enterTx, entered, hr]
    · simp [framesDropped]
    · simp [framesDropped, holds_eq]
      exact ⟨rfl, rfl, rfl⟩
    · simp [framesDropped, holds_eq]
    · simp [framesDropped, holds_eq]
      rfl
    · simp [framesDropped, holds_eq]
    · rw [refresh_suu, joined_dropped]
      rfl
    · simp [framesDropped, raise]
  · rw [mute_eq u hm]
    dsimp only
    rw [if_pos hx]
    exact ⟨by simp, by simp, by simp, by simp, by simp, by rw [enterJoined_eq]; rfl, by simp [raise]⟩
  · rw [refresh_blink, hpnl]
  · have hd := refresh_display (mute (raise .duplicate u))
    unfold DisplayFollows at hd ⊢
    rw [hpnl] at hd
    exact hd
  · clear hpnl
    by_cases hport : b = .cmp
    · subst hport
      simp only [Block.same, refresh_cmp]
      rw [hcmp]
    · clear hcmp
      cases b <;> simp_all [Block.same]

/-! ### Sender check and duplicate check (R13, R33) -/

/-- What a taking of the own number at a station that did not send the frame leaves: a duplicate (R13). -/
theorem takes_duplicate (f : Frame) (s : State) (hc : canTake f s = true) (hx : s.lcu.tx ≠ .slots)
    (hd : f.desk.toNat = s.suu.identity.desk) :
    takes f (ownersDo f) s = .next (refresh (mute (raise .duplicate (ownersLeft f s)))) := by
  have hown : ownAttempt s = false := by simp [ownAttempt, hx]
  have hid : (ownersLeft f s).suu.identity = s.suu.identity := by
    unfold ownersLeft
    dsimp only
    split
    · exact (ownersDo_keptSound f _).identity.trans (by simp)
    · simp
  unfold takes
  rw [when_occurs _ _ hc]
  unfold taking
  rw [takenAtLine_receiver s hx, hown]
  change Host.Outcome.next (refresh (checkDuplicate false f.desk.toNat (ownersLeft f s))) = _
  unfold checkDuplicate
  rw [if_pos ⟨by rw [hid]; exact hd, rfl⟩]

/-- What the owners of a frame leave alone before the duplicate check. -/
theorem ownersLeft_keeps (f : Frame) (s : State) :
    (ownersLeft f s).suu.muted = s.suu.muted ∧ (ownersLeft f s).pnl = s.pnl ∧ (ownersLeft f s).pending = s.pending := by
  unfold ownersLeft
  dsimp only
  split
  · obtain ⟨hpnl, hpending, -, -⟩ := ownersDo_keeps f (markHeard f.desk.toNat f.round.toNat (frameEnd s))
    exact ⟨(ownersDo_keptSound f _).muted.trans (by simp), hpnl.trans (by simp), hpending.trans (by simp)⟩
  · simp

/-- A frame that fails its sender check leaves its sender heard and nothing else (R33, R188). -/
theorem ownersLeft_onlyHeard (f : Frame) (s : State) (ht : TablesSound s)
    (ha : senderAllowed f.desk.toNat f.body = false) : ownersLeft f s = onlyHeard f s := by
  unfold ownersLeft
  dsimp only
  rw [ha, if_neg (by simp), markHeard_heard f s ht]
  rfl

/-- Settles O46: at a receiver `taking_received`, at a duplicate `takes_duplicate`, its end by `mute_mutes`. -/
theorem senderChecks : Obligations.SenderChecks := by
  intro f s
  refine ⟨fun h ht ha => ?_, fun hc hx hd => ⟨fun hm => ?_, fun hm => ?_⟩⟩
  · refine ⟨refresh (heard f s), ?_, ⟨rfl, rfl⟩, rfl, ?_⟩
    · rw [exec_takingOf f s h.2.1]
      unfold takes
      rw [when_occurs _ _ h.1, taking_received f _ s h fun x => (ownersDo_keptSound f x).identity, ha, if_neg (by simp),
        markHeard_heard f s ht]
    · refine stepFrame_of _ _ s (heard f s) (fun b hb h1 h2 => ?_) (fun _ => rfl) (fun _ => rfl) rfl rfl
      cases b <;> simp_all [Block.same, heard]
  · obtain ⟨hmuted, hpnl, hpending⟩ := ownersLeft_keeps f s
    have hmutes := mute_mutes (ownersLeft f s) s (hmuted.trans hm) hpnl hpending
    refine ⟨_, (exec_takingOf f s hx).trans (takes_duplicate f s hc hx hd), hmutes, fun ht ha => ?_⟩
    rw [ownersLeft_onlyHeard f s ht ha] at hmutes ⊢
    exact hmutes
  · have hmute : mute (raise .duplicate (ownersLeft f s)) = raise .duplicate (ownersLeft f s) :=
      if_pos ((ownersLeft_keeps f s).1.trans hm)
    have hframe : StepFrame [] Event.duplicate.flag (ownersLeft f s) (refresh (raise .duplicate (ownersLeft f s))) :=
      stepFrame_refresh _ _ _ _ (fun b _ h1 h2 => by cases b <;> simp_all [Block.same]) rfl rfl rfl
    refine ⟨_, (exec_takingOf f s hx).trans (takes_duplicate f s hc hx hd), by rw [hmute]; exact hframe, fun ht ha => ?_⟩
    rw [hmute, ← ownersLeft_onlyHeard f s ht ha]
    exact hframe

end Sys2Proof.Machine

namespace Sys2Proof.Machine

open Sys2Proof.Safety

/-! ### The own frame taken (R11, R42, R65, R71, R191) -/

/-- What the owners of the station's own frame do with it: a console's VERDICT has its marker cleared besides (R165). -/
def ownersOwn (f : Frame) : State → State :=
  match f.body with
  | .verdict t m o c => verdictEffect true f.round t m o c
  | _ => ownersDo f

theorem exec_takingOf_own (f : Frame) (s : State) (hx : s.lcu.tx = .slots) :
    exec (takingOf f) s = takes f (ownersOwn f) s := by
  obtain ⟨desk, round, body⟩ := f
  cases body with
  | verdict t m o c =>
    have hown : ownAttempt s = true := by simp [ownAttempt, hx]
    change takes ⟨desk, round, .verdict t m o c⟩ (verdictEffect (ownAttempt s) round t m o c) s = _
    rw [hown]
    rfl
  | _ => rfl

theorem ownersOwn_identity (f : Frame) (s : State) : (ownersOwn f s).suu.identity = s.suu.identity := by
  obtain ⟨desk, round, body⟩ := f
  cases body with
  | verdict t m o c => exact (verdictEffect_keptSound true round t m o c s).identity
  | _ => exact (ownersDo_keptSound _ s).identity

/-- No owner hands to the place of the frame it is told of, pages of totals apart. -/
theorem ownersOwn_keeps (c : Content) (desk : Desk) (round : Byte) (s : State) (ht : ∀ n, c.place ≠ .tally n) :
    OwnerKeeps c.place s (ownersOwn ⟨desk, round, payloadOf c⟩ s) := by
  cases c with
  | close q => exact closeEffect_keeps round q s
  | verdict t m o x => exact verdictEffect_keeps true round t m _ _ s
  | pass t m => exact passEffect_keeps round t m s
  | claim x m => exact claimEffect_keeps desk round x m s
  | choice x k m => exact choiceEffect_keeps desk round x k m s
  | tally n x => exact absurd rfl (ht n)
  | reveal k => exact revealEffect_keeps round k s ht
  | open_ n b => exact openEffect_keeps round b s
  | roll i w => exact rollEffect_keeps i w s (by simp [Content.place])
  | present r m i g => exact presentEffect_keeps desk r m i g s
  | hello r m t => exact helloEffect_keeps desk r m t s ht

theorem markHeard_keeps {p : Place} (d r : Nat) (s : State) : OwnerKeeps p s (markHeard d r s) :=
  (OwnerKeeps.of_same (t := setEntry d _ s) (by simp) (by simp) (by simp) (by simp) (by simp [State.flagSet])).trans
    (raiseIf_keeps _ .presenceChanged _ (by decide))

/-- The own frame's place is empty once it has left (R35, R42). -/
theorem place_left (s : State) (g : QFrame) (hq : QueueSound s) (hg : attempted s = some g) :
    frameAt g.place (s.lcu.queue.filter fun f => !f.inAttempt) = none := by
  obtain ⟨hin, -⟩ := attempted_sound s g hq hg
  refine frameAt_none.mpr fun f hf hp => ?_
  obtain ⟨hmem, hrest⟩ := List.mem_filter.mp hf
  have hfg := place_unique _ f g hq.1 hmem (List.mem_of_find?_eq_some hg) hp
  rw [hfg, hin] at hrest
  cases hrest

/-- The sender's station, once its own frame is taken and itself marked heard, is settled with the frame's place empty. -/
theorem taken_settled (s : State) (g : QFrame) (d r : Nat) (hq : QueueSound s) (hx : s.lcu.tx = .slots)
    (hg : PlainAttempt g s) : Settled g.place (s.flagSet .txDropped) (markHeard d r (takenAtLine s)) := by
  obtain ⟨hatt, -, hpend, ht⟩ := hg
  refine (markHeard_keeps d r _).settled _ ?_
  rw [takenAtLine_own g s hq hx hatt hpend ht]
  refine ⟨by simp [lineIdle, joinable, edgePending], ?_, ?_, rfl⟩
  · simp only [lcuTaken, if_pos hx]
    split <;> simp
  · simp only [lcuTaken, if_pos hx]
    exact place_left s g hq hatt

/-! #### What the owners record of it -/

/-- A withdrawal of an empty place does nothing. -/
theorem withdraw_absent (p : Place) (s : State) (h : frameAt p s.lcu.queue = none) : withdraw p s = s := by
  unfold withdraw
  rw [h]

/-- The own CLAIM's part of the press record, its state and its stamp. -/
def claimRecord (s : State) : OwnClaim × Option Nat := (s.icu.record.ownClaim, s.icu.record.claimStamp)

theorem told_claimRecord (f : QFrame) (s : State) (h : f.place ≠ .claim) :
    claimRecord (told .withdrawn f s) = claimRecord s := by
  unfold told
  split <;> simp_all [claimRecord, setRecord]

/-- The withdrawal of another frame leaves the own CLAIM's record (R65, R71). -/
theorem withdraw_claimRecord (p : Place) (s : State) (h : p ≠ .claim) : claimRecord (withdraw p s) = claimRecord s := by
  unfold withdraw
  split
  · rfl
  · rename_i f hf
    have hfp : f.place ≠ .claim := by rw [(frameAt_some hf).2]; exact h
    split
    · rfl
    · have ht := told_claimRecord f (setQueue (removeAt p s.lcu.queue) s) hfp
      dsimp only
      split
      · exact ht
      · exact ht

theorem withdrawOwn_claimRecord (s : State) (h : frameAt .claim s.lcu.queue = none) :
    claimRecord (withdrawOwn s) = claimRecord s := by
  unfold withdrawOwn
  rw [withdraw_absent .claim s h, withdraw_claimRecord .pass _ (by simp), withdraw_claimRecord .choice s (by simp)]

/-- Whatever follows at an instant of the round leaves the record of a CLAIM that is not queued (R95). -/
theorem advance_claimRecord (s : State) (h : frameAt .claim s.lcu.queue = none) :
    claimRecord (advance s) = claimRecord s := by
  unfold advance
  split
  · rfl
  split
  · simp [claimRecord]
  split
  · exact withdrawOwn_claimRecord
      ((s.withRng { s.rng with phase := .ended, answerRunning := false }).withRck { s.rck with running := false }) h
  · rfl

/-- The own CLAIM's record TAKEN (R65). -/
theorem claimEffect_own (desk : Desk) (round : Byte) (stamp : Triple) (team : Byte) (s : State)
    (hd : desk.toNat = s.suu.identity.desk) (hn : frameAt .claim s.lcu.queue = none) :
    claimRecord (claimEffect desk round stamp team s) = (.taken, some stamp.toNat) := by
  unfold claimEffect
  have hlist : ∀ x, (claimAtList desk.toNat round.toNat stamp.toNat x s).suu = s.suu ∧
      (claimAtList desk.toNat round.toNat stamp.toNat x s).lcu = s.lcu := by
    intro x
    unfold claimAtList
    split <;> exact ⟨rfl, rfl⟩
  obtain ⟨hsuu, hlcu⟩ := hlist team.toNat
  have hdesk : claimAtDesk desk.toNat round.toNat stamp.toNat team.toNat
      (claimAtList desk.toNat round.toNat stamp.toNat team.toNat s) = setRecord _ _ :=
    if_pos (by rw [hsuu]; exact hd)
  rw [hdesk, advance_claimRecord _ (by simpa [setRecord, hlcu] using hn)]
  rfl

/-- The own CHOICE's key is the last taken (R71). -/
theorem choiceEffect_own (desk : Desk) (round : Byte) (stamp : Triple) (key team : Byte) (s : State)
    (hd : desk.toNat = s.suu.identity.desk) :
    (choiceEffect desk round stamp key team s).icu.record.lastKey = key.toNat := by
  have htable : (choiceAtTable desk.toNat round.toNat stamp.toNat key.toNat team.toNat s).suu = s.suu := by
    unfold choiceAtTable
    split <;> rfl
  unfold choiceEffect choiceAtDesk
  rw [if_pos (by rw [htable]; exact hd)]
  rfl

/-- A console's own ROLL starts the polling (R191; log 38). -/
theorem rollEffect_own (id window : Byte) (s : State) (hc : consoleStation s = true) (hi : s.cnf.rollState = .idle) :
    (rollEffect id window s).cnf =
      { s.cnf with
        rollState := .polling, currentRoll := some id.toNat, window := some (max 5 window.toNat), replySet := []
        windowTimer := .running (max 5 window.toNat * 10000) } := by
  have hpoll : startPolling id.toNat window.toNat s = s.withCnf _ := if_pos ⟨hc, hi⟩
  unfold rollEffect
  dsimp only
  rw [hpoll]
  split <;> simp

/-- A HELLO changes nothing at the start-up unit of its own accord. -/
theorem helloEffect_suu (desk : Desk) (role team : Byte) (tag : Half) (s : State) :
    (helloEffect desk role team tag s).suu = s.suu := by
  unfold helloEffect
  dsimp only
  split <;> simp

theorem content_hello (c : Content) (h : c.place = .hello) : ∃ r m t, c = .hello r m t := by
  cases c <;> simp_all [Content.place]

/-- Settles O47: `taken_settled` and `ownersOwn_keeps` for every class, the records by the class's own lemma. -/
theorem ownFrameTaken : Obligations.OwnFrameTaken := by
  intro g s hq hx hg hst hdec hcells hdesk hallow
  obtain ⟨hatt, -, hpend, hplain⟩ := id hg
  obtain ⟨-, -, ⟨hplace, -⟩, -⟩ := attempted_sound s g hq hatt
  have hd : (frameOf s g).desk.toNat = s.suu.identity.desk := by
    simpa [frameOf] using Nat.mod_eq_of_lt hdesk
  have htakes : Takes g.place (frameOf s g) s := by
    refine ⟨?_, .inr ⟨hd, hx, g, by simp [hatt], rfl⟩⟩
    have hw : s.suu.startUp.atWork = true := by rcases hst with h | h <;> rw [h] <;> rfl
    have hbits : sentBits s = wireBits (frameOf s g) := by simp [sentBits, hatt]
    simp [canTake, hw, hx, hdec, Decode.inside, hcells, hbits]
  have hexec := (exec_takingOf_own (frameOf s g) s hx).trans
    (takes_allowed g.place (frameOf s g) _ s htakes (by rw [hd]; exact hallow) (ownersOwn_identity _))
  have hset := taken_settled s g (frameOf s g).desk.toNat (frameOf s g).round.toNat hq hx hg
  have hline := takenAtLine_own g s hq hx hatt hpend hplain
  have hid : (markHeard (frameOf s g).desk.toNat (frameOf s g).round.toNat (takenAtLine s)).suu = (takenAtLine s).suu ∧
      (markHeard (frameOf s g).desk.toNat (frameOf s g).round.toNat (takenAtLine s)).lif = hunted s.lif ∧
      (markHeard (frameOf s g).desk.toNat (frameOf s g).round.toNat (takenAtLine s)).cnf = s.cnf := by
    simp [hline]
  generalize markHeard (frameOf s g).desk.toNat (frameOf s g).round.toNat (takenAtLine s) = u at hexec hset hid
  obtain ⟨hsuu, hlif, hcnf⟩ := hid
  have hkeeps : OwnerKeeps g.place u (ownersOwn (frameOf s g) u) := by
    rw [← hplace]
    exact ownersOwn_keeps g.content _ _ u (by rw [hplace]; exact hplain)
  have hdone := hkeeps.settled _ hset
  have hdu : (frameOf s g).desk.toNat = u.suu.identity.desk := by
    rw [hd, hsuu, hline]
    dsimp only
    split <;> rfl
  refine ⟨_, hexec, hdone.empty, hkeeps.lif.trans hlif, hdone.tx, fun hf => ?_, fun hp => ?_, fun x m hc => ?_,
    fun x k m hc => ?_, fun i w hc hr hi => ?_⟩
  · have hflag := hdone.flag.trans hf
    simpa [State.flagSet] using hflag
  · obtain ⟨r, m, tag, hc⟩ := content_hello g.content (hplace.trans hp)
    have howner : ownersOwn (frameOf s g) u = helloEffect (frameOf s g).desk r m tag u := by
      simp only [ownersOwn, ownersDo, frameOf, hc, payloadOf]
    rw [refresh_suu, howner, helloEffect_suu, hsuu, hline]
    rcases hst with h | h <;> simp [hp, h]
  · have howner : ownersOwn (frameOf s g) u = claimEffect (frameOf s g).desk (frameOf s g).round x m u := by
      simp only [ownersOwn, ownersDo, frameOf, hc, payloadOf]
    have hempty : frameAt .claim u.lcu.queue = none := by
      have hp : g.place = .claim := by rw [← hplace, hc]; rfl
      rw [← hp]
      exact hset.empty
    rw [refresh_icu, howner]
    have hrec := claimEffect_own (frameOf s g).desk (frameOf s g).round x m u hdu hempty
    exact ⟨congrArg Prod.fst hrec, congrArg Prod.snd hrec⟩
  · have howner : ownersOwn (frameOf s g) u = choiceEffect (frameOf s g).desk (frameOf s g).round x k m u := by
      simp only [ownersOwn, ownersDo, frameOf, hc, payloadOf]
    rw [refresh_icu, howner, choiceEffect_own _ _ _ _ _ _ hdu]
  · have howner : ownersOwn (frameOf s g) u = rollEffect i w u := by
      simp only [ownersOwn, ownersDo, frameOf, hc, payloadOf]
    have hconsole : consoleStation u = true := by
      have hp : g.place = .roll := by rw [← hplace, hc]; rfl
      have hwork : s.suu.startUp.atWork = true := by rcases hst with h | h <;> rw [h] <;> rfl
      simp [consoleStation, hsuu, hline, hp, hr, hwork]
    rw [refresh_cnf, howner, rollEffect_own i w u hconsole (by rw [hcnf]; exact hi)]
    exact ⟨rfl, rfl, rfl, rfl, rfl⟩

end Sys2Proof.Machine

namespace Sys2Proof.Machine

open Sys2Proof.Safety

/-! ### The outputs at the end of every step (R16, R176 to R186, R202) -/

/-- A step that names no event leaves the outputs as they agreed; any other ends in a refresh. -/
theorem when_outputs {b : Bool} {f : State → State} {s t : State} (hs : OutputsAgree s) (h : when b f s = .next t) :
    OutputsAgree t := by
  rcases when_next b f s with hw | hw <;> rw [hw] at h <;> cases h
  · exact refresh_outputs _
  · exact hs

theorem command_outputs {f : State → State} {s t : State} (hs : OutputsAgree s) (h : command f s = .next t) :
    OutputsAgree t := when_outputs hs h

theorem consoleCommand_outputs {code : Byte} {f : State → State} {s t : State} (hs : OutputsAgree s)
    (h : consoleCommand code f s = .next t) : OutputsAgree t := by
  unfold consoleCommand at h
  exact command_outputs hs h

theorem takes_outputs {f : Frame} {eff : State → State} {s t : State} (hs : OutputsAgree s)
    (h : takes f eff s = .next t) : OutputsAgree t := when_outputs hs h

/-- After a reset the outputs are the four dashes, no lamp, no interrupt, LTX released (R16, R176). -/
theorem resetState_outputs (cause : ResetCause) (role1 role0 csN : Bool) (s : State) :
    OutputsAgree (resetState cause role1 role0 csN s) :=
  ⟨rfl, rfl, rfl, rfl, .inl rfl, (by decide : true = irqLevel 0 0), rfl⟩

/-- The outputs read neither the queue of waiting commands nor the age of the line's edge. -/
theorem outputsAgree_pending (rest : List Instr) (s : State) (h : OutputsAgree s) : OutputsAgree (s.withPending rest) := h

theorem outputsAgree_edgeAges (s : State) (h : OutputsAgree s) : OutputsAgree (edgeAges s) := h

/-- Every command ends with the outputs of the state it leaves. -/
theorem exec_outputs (c : Instr) (s t : State) (hs : OutputsAgree s) (h : exec c s = .next t) : OutputsAgree t := by
  cases c with
  | powerOnReset | resetN | restart =>
    rcases exec_reset _ s t rfl h with rfl | ⟨_, _, _, _, rfl⟩
    · exact hs
    · exact resetState_outputs _ _ _ _ _
  | blinkBaseHalfPeriod => cases h; exact refresh_outputs _
  | lineLevelChange change => cases change <;> exact when_outputs hs h
  | storeWriteEnd | lineFault | faultMemoryExpiry | droppedFrameFlashEnd | displayUpdateEnd | transferStart
  | transferEndNoCommand =>
    simp only [exec, execStoreWriteEnd, execLineFault, execFaultMemoryExpiry, execDroppedFrameFlashEnd,
      execDisplayUpdateEnd, execTransferStart, execTransferEndNoCommand] at h
    exact when_outputs hs h
  | clearRollReport =>
    unfold exec execClearRollReport at h
    exact consoleCommand_outputs hs h
  | openTaken | closeTaken | verdictTaken | passTaken | claimTaken | choiceTaken | tallyTaken | revealTaken | rollTaken
  | presentTaken | helloTaken => exact takes_outputs hs h
  | nop | clearFaults | clearEvents | setEventMask | status | readScores | readClaims | readChoices | readPresence
  | readRollReport | readFaults | readEvents =>
    simp only [exec, execNop, execClearFaults, execClearEvents, execSetEventMask, execStatus, execReadScores,
      execReadClaims, execReadChoices, execReadPresence, execReadRollReport, execReadFaults, execReadEvents] at h
    exact command_outputs hs h
  | openRound | closeRound | verdictCommand | revealCommand | setTotal | adjust | sendTally | rollCall =>
    exact consoleCommand_outputs hs h
  | _ => exact when_outputs hs h

/-- Settles O8: a step is a command, each ending in a refresh of the outputs, or the ageing of an edge. -/
theorem outputsFollowState : Obligations.OutputsFollowState := by
  intro s t hs h
  rcases step_cases s t h with rfl | ⟨c, rest, hc⟩
  · exact outputsAgree_edgeAges s hs
  · exact exec_outputs c _ t (outputsAgree_pending rest s hs) hc

end Sys2Proof.Machine

namespace Sys2Proof.Machine

/-! ### The bits of a field read back (R23) -/

/-- The first bits of a field spell its quotient by the weight of the others. -/
theorem natOfBits_prefix {n : Nat} (x : BitVec n) (k : Nat) (h : k ≤ n) :
    natOfBits ((List.range k).map x.getMsbD) = x.toNat / 2 ^ (n - k) := by
  induction k with
  | zero => simpa [natOfBits] using (Nat.div_eq_of_lt x.isLt).symm
  | succ k ih =>
    have hstep : natOfBits ((List.range (k + 1)).map x.getMsbD) =
        2 * natOfBits ((List.range k).map x.getMsbD) + (x.getMsbD k).toNat := by
      simp [natOfBits, List.range_succ]
    have hbit : (x.getMsbD k).toNat = x.toNat / 2 ^ (n - (k + 1)) % 2 := by
      rw [BitVec.getMsbD, decide_eq_true (by omega : k < n), Bool.true_and, BitVec.getLsbD,
        Nat.testBit_eq_decide_div_mod_eq, show n - 1 - k = n - (k + 1) by omega]
      rcases Nat.mod_two_eq_zero_or_one (x.toNat / 2 ^ (n - (k + 1))) with h | h <;> simp [h]
    have hpow : x.toNat / 2 ^ (n - k) = x.toNat / 2 ^ (n - (k + 1)) / 2 := by
      rw [Nat.div_div_eq_div_mul, ← Nat.pow_succ, show (n - (k + 1)).succ = n - k by omega]
    rw [hstep, ih (by omega), hbit, hpow]
    omega

/-- The bits of a field spell its number, most significant first (R23). -/
theorem natOfBits_bitsOf {n : Nat} (x : BitVec n) : natOfBits (bitsOf x) = x.toNat := by
  rw [bitsOf, natOfBits_prefix x n le_rfl]
  simp

/-- Bytes sent bit by bit are read back (R23). -/
theorem bytesOfBits_flatMap (bytes : List Byte) (rest : List Bool) :
    bytesOfBits bytes.length (bytes.flatMap bitsOf ++ rest) = bytes := by
  induction bytes generalizing rest with
  | nil => rfl
  | cons b bytes ih => simp [bytesOfBits, natOfBits_bitsOf, byteOf, ih]

/-! ### Fields from their bytes (R203) -/

theorem half_bytes (x : Half) : half (x.extractLsb' 8 8) (x.extractLsb' 0 8) = x := by
  exact (BitVec.extractLsb'_append_extractLsb'_eq_extractLsb' (start₂ := 8) (len₁ := 8) rfl).trans
    BitVec.extractLsb'_eq_self

theorem triple_bytes (x : Triple) : triple (x.extractLsb' 16 8) (x.extractLsb' 8 8) (x.extractLsb' 0 8) = x := by
  have h : x.extractLsb' 16 8 ++ x.extractLsb' 8 8 = x.extractLsb' 8 16 :=
    BitVec.extractLsb'_append_extractLsb'_eq_extractLsb' rfl
  rw [triple, h]
  exact (BitVec.extractLsb'_append_extractLsb'_eq_extractLsb' (start₂ := 8) (len₁ := 8) rfl).trans
    BitVec.extractLsb'_eq_self

theorem levels_bytes (x : BitVec 32) :
    x.extractLsb' 24 8 ++ x.extractLsb' 16 8 ++ x.extractLsb' 8 8 ++ x.extractLsb' 0 8 = x := by
  have h1 : x.extractLsb' 24 8 ++ x.extractLsb' 16 8 = x.extractLsb' 16 16 :=
    BitVec.extractLsb'_append_extractLsb'_eq_extractLsb' rfl
  have h2 : x.extractLsb' 16 16 ++ x.extractLsb' 8 8 = x.extractLsb' 8 24 :=
    BitVec.extractLsb'_append_extractLsb'_eq_extractLsb' rfl
  rw [h1, h2]
  exact (BitVec.extractLsb'_append_extractLsb'_eq_extractLsb' (start₂ := 8) (len₁ := 8) rfl).trans
    BitVec.extractLsb'_eq_self

/-- The parameter block is read back from its nineteen bytes (R203). -/
theorem parseBlock_blockBytes (b : OpenBlock) : parseBlock (blockBytes b) = some b := by
  simp [blockBytes, bytes2, bytes4, parseBlock, half_bytes, levels_bytes]

/-- A payload is read back from its class and its bytes (R25, R203). -/
theorem parsePayload_payloadBytes (p : Payload) : parsePayload (payloadClass p) (payloadBytes p) = some p := by
  cases p with
  | open_ b => simp only [payloadClass, payloadBytes, parsePayload, parseBlock_blockBytes, Option.map_some]
  | close | claim | choice => simp [payloadClass, payloadBytes, bytes3, parsePayload, triple_bytes]
  | verdict | tally | hello => simp [payloadClass, payloadBytes, bytes2, parsePayload, half_bytes]
  | pass | reveal | roll | present => rfl

/-- The length of a payload is its class's (R25). -/
theorem classLength_payload (p : Payload) : classLength (payloadClass p) = some (payloadBytes p).length := by
  cases p <;> rfl

theorem payloadClass_lt (p : Payload) : payloadClass p < 16 := by cases p <;> simp [payloadClass]

/-! ### The frame from its bits (R23, R25) -/

/-- The bits of a frame before its CRC are read back as the frame. -/
theorem parseFrame_frameBits (f : Frame) : parseFrame (frameBits f) = some f := by
  have hclass : headerClass (frameBits f) = payloadClass f.body := by
    simp [headerClass, frameBits, natOfBits_bitsOf, Nat.mod_eq_of_lt (payloadClass_lt f.body)]
  have hlen : headerLength (frameBits f) = (payloadBytes f.body).length := by
    simp [headerLength, frameBits, List.drop_append, List.drop_of_length_le, natOfBits_bitsOf,
      Nat.mod_eq_of_lt (payloadBytes_length_lt f.body)]
  have hbody : (frameBits f).drop headerCells = (payloadBytes f.body).flatMap bitsOf := by
    simp [headerCells, frameBits, List.drop_append, List.drop_of_length_le]
  have hdesk : ((frameBits f).drop 4).take 6 = bitsOf f.desk := by simp [frameBits]
  have hround : ((frameBits f).drop 10).take 8 = bitsOf f.round := by simp [frameBits, List.take_append, List.drop_append]
  have hbytes := bytesOfBits_flatMap (payloadBytes f.body) []
  rw [List.append_nil] at hbytes
  simp [parseFrame, hclass, hlen, hbody, hdesk, hround, hbytes, parsePayload_payloadBytes, natOfBits_bitsOf, byteOf]

/-! ### A clean line (R18) -/

/-- Clean cells hold no missing cell and no width error. -/
theorem cleanCells_clean (bits : List Bool) :
    (cleanCells bits).any (· == .missing) = false ∧ ∀ n, firstWidthError n (cleanCells bits) = none := by
  induction bits with
  | nil => exact ⟨rfl, fun _ => rfl⟩
  | cons b bits ih =>
    obtain ⟨hm, hw⟩ := ih
    cases b
    · exact ⟨hm, fun n => hw (n + 1)⟩
    · exact ⟨hm, fun n => hw (n + 1)⟩

theorem frameBits_length (f : Frame) : (frameBits f).length = 23 + 8 * (payloadBytes f.body).length := by
  simp [frameBits]; omega

/-- Settles O11: header, length, CRC and payload of the clean cells are those sent, and the bits spell the frame. -/
theorem frameRoundTrip : Obligations.FrameRoundTrip := by
  intro f
  have hheader : readBits ((cleanCells (wireBits f)).take headerCells) = some ((wireBits f).take 23) := by
    rw [cleanCells, ← List.map_take]
    exact readBits_cleanCells _
  have hclass : headerClass ((wireBits f).take 23) = payloadClass f.body := by
    simp [headerClass, wireBits, frameBits, List.take_append, List.take_of_length_le, natOfBits_bitsOf,
      Nat.mod_eq_of_lt (payloadClass_lt f.body)]
  have hplaced : (cleanCells (wireBits f)).length = headerCells + 8 * (payloadBytes f.body).length + 16 := by
    simp [cleanCells, wireBits_length, headerCells]; omega
  obtain ⟨hm, hw⟩ := cleanCells_clean (wireBits f)
  have hbody : (wireBits f).take (headerCells + 8 * (payloadBytes f.body).length) = frameBits f :=
    List.take_left' (frameBits_length f)
  have hcrc : (wireBits f).drop (headerCells + 8 * (payloadBytes f.body).length) = bitsOf (crc (frameBits f)) :=
    List.drop_left' (frameBits_length f)
  unfold receive
  simp only [hheader, headerLength_wireBits, hclass, hplaced, hm, classLength_payload, hw, readBits_cleanCells, hbody, hcrc,
    parseFrame_frameBits, ne_eq, not_true_eq_false, if_false, if_true, Bool.false_eq_true]

end Sys2Proof.Machine

namespace Sys2Proof.Machine

open Sys2Proof.Safety

/-! ### The answers to a hand-over (R36 to R38) -/

/-- A shut transmitter drops what it is handed (R36). -/
theorem handOver_shut (c : Content) (h : Hander) (s : State) (hx : s.lcu.tx.shut = true) :
    handAnswer c s = .dropped ∧ handOver c h s = raise .txDropped s := by
  have ha : handAnswer c s = .dropped := by simp [handAnswer, hx]
  exact ⟨ha, by simp [handOver, ha]⟩

/-- An occupied place answers by its frame: a CHOICE not marked for withdrawal takes the new content, any other stays
(R37, R38). -/
theorem handAnswer_occupied (c : Content) (s : State) (f : QFrame) (hx : s.lcu.tx.shut = false)
    (hw : s.suu.startUp.atWork = true) (hr : s.suu.identity.role.hasPlace c.place = true)
    (hf : frameAt c.place s.lcu.queue = some f) :
    handAnswer c s = if c.place = .choice ∧ f.withdrawn = false then .replaced else .already f.inAttempt := by
  simp [handAnswer, hx, hw, hr, hf]

/-- Settles O33, by the place: a shut transmitter's, an empty one, an occupied one. -/
theorem handOver_holds : Obligations.HandOver := by
  intro s c h hq
  refine ⟨fun hx => handOver_shut c h s ((shut_iff _).mpr hx), fun hh hm hst hr => ?_⟩
  have hx : s.lcu.tx.shut = false := not_shut hh hm
  have hw : s.suu.startUp.atWork = true := by simpa [atWork_eq] using hst
  refine ⟨fun hn => ?_, fun f hf hne => ?_, fun f hf hc hwd => ?_⟩
  · have ha := handAnswer_queued c s hx hw hr hn
    have hsound : SoundQueue s.suu.identity.role s.lcu.queue := ⟨hq.1, hq.2.1⟩
    exact ⟨ha, (handOver_queued c h s ha).1, insertFrame_perm _ _,
      (hsound.insert (fresh c h) hn hr (fresh_sound c h).1).1⟩
  · have ha : handAnswer c s = .already f.inAttempt := by
      rw [handAnswer_occupied c s f hx hw hr hf, if_neg]
      rintro ⟨h1, h2⟩
      rcases hne with hne | hne
      · exact hne h1
      · rw [h2] at hne; cases hne
    exact ⟨ha, by simp [handOver, ha]⟩
  · have ha : handAnswer c s = .replaced := by rw [handAnswer_occupied c s f hx hw hr hf, if_pos ⟨hc, hwd⟩]
    refine ⟨ha, ?_⟩
    simp only [handOver, ha, modifyAt, hc]
    congr 1
    refine List.map_congr_left fun g _ => ?_
    by_cases hg : g.place = .choice <;> simp [hg, replaceContent]

end Sys2Proof.Machine

namespace Sys2Proof.Machine

open Sys2Proof.Safety

/-! ### Steps of line interface and line controller (02, 03) -/

/-- The state with another line interface and another line controller, these flags raised. -/
def atLine (u : State) (x : Lif) (l : Lcu) (raised : BitVec 14) : State :=
  { u with lif := x, lcu := l, cmp := { u.cmp with flags := u.cmp.flags ||| raised } }

theorem atLine_zero (u : State) (x : Lif) (l : Lcu) : atLine u x l 0 = (u.withLif x).withLcu l := by
  simp [atLine, State.withLif, State.withLcu]

theorem withLif_atLine (s : State) (x : Lif) : s.withLif x = atLine s x s.lcu 0 := by
  rw [atLine_zero]
  rfl

@[simp] theorem atLine_lif (u : State) (x : Lif) (l : Lcu) (r : BitVec 14) : (atLine u x l r).lif = x := rfl
@[simp] theorem atLine_lcu (u : State) (x : Lif) (l : Lcu) (r : BitVec 14) : (atLine u x l r).lcu = l := rfl

/-- The frame of a step that changes line interface and line controller alone. -/
theorem atLine_stepFrame (s : State) (x : Lif) (l : Lcu) (r : BitVec 14) :
    StepFrame [.lif, .lcu] r s (refresh (atLine s x l r)) :=
  stepFrame_of _ r s _ (fun b hb h1 h2 => by cases b <;> simp_all [Block.same, atLine]) (fun _ => rfl) (fun _ => rfl) rfl rfl

/-- The frame of a step that changes the line interface alone. -/
theorem lif_stepFrame (s : State) (x : Lif) (r : BitVec 14) : StepFrame [.lif] r s (refresh (atLine s x s.lcu r)) :=
  stepFrame_of _ r s _ (fun b hb h1 h2 => by cases b <;> simp_all [Block.same, atLine]) (fun _ => rfl) (fun _ => rfl) rfl rfl

/-! ### What the end of an attempt and the emptying of the queue leave alone (R37 to R43, R49) -/

/-- Beside start-up unit, line, line controller, inputs, round context and console function, nothing but drop flash and event
flags has changed. -/
structure SameBeside (s u : State) : Prop where
  pnl : u.pnl = { s.pnl with flash := u.pnl.flash }
  cmp : u.cmp = { s.cmp with flags := u.cmp.flags }
  pending : u.pending = s.pending
  others : ∀ b, b ∉ [Block.suu, .lif, .lcu, .icu, .rng, .cnf, .pnl, .cmp] → b.same s u

theorem SameBeside.refl (s : State) : SameBeside s s :=
  ⟨rfl, rfl, rfl, fun b hb => by cases b <;> simp_all [Block.same]⟩

theorem SameBeside.atLine {s u : State} (h : SameBeside s u) (x : Lif) (l : Lcu) (r : BitVec 14) :
    SameBeside s (atLine u x l r) := by
  obtain ⟨hpnl, hcmp, hpend, hothers⟩ := h
  refine ⟨hpnl, ?_, hpend, fun b hb => ?_⟩
  · simp only [Machine.atLine]
    rw [hcmp]
  · have h := hothers b hb
    clear hpnl hcmp hothers
    cases b <;> simp_all [Block.same, Machine.atLine]

/-- What a refresh shows of such a state. -/
theorem SameBeside.refresh {s u : State} (h : SameBeside s u) :
    (refresh u).pnl.blink = s.pnl.blink ∧ DisplayFollows s (refresh u) ∧ (refresh u).pending = s.pending ∧
      OutputsAgree (refresh u) ∧
      ∀ b, b ∉ [Block.suu, .lif, .lcu, .icu, .rng, .cnf, .pnl] → b.same s (refresh u) := by
  obtain ⟨hpnl, hcmp, hpend, hothers⟩ := h
  refine ⟨by rw [refresh_blink, hpnl], ?_, hpend, refresh_outputs u, fun b hb => ?_⟩
  · have hd := refresh_display u
    unfold DisplayFollows at hd ⊢
    rwa [hpnl] at hd
  · by_cases hport : b = .cmp
    · subst hport
      change (Machine.refresh u).cmp = _
      rw [refresh_cmp, hcmp]
    · have hp : b ≠ .pnl := by rintro rfl; simp at hb
      exact same_refresh b s u hp hport (hothers b (by simp_all))

/-! ### The end of an attempt and the rest of its step (R37 to R43) -/

/-- In an attempt a sound queue has a frame in attempt (R41). -/
theorem attempted_exists (s : State) (hq : QueueSound s) (hx : attemptState s.lcu.tx = true) : ∃ f, attempted s = some f := by
  obtain ⟨-, -, ⟨-, -, hcount⟩, -⟩ := hq
  rw [hx] at hcount
  have hpos : 0 < s.lcu.queue.countP QFrame.inAttempt := by
    rw [show s.lcu.queue.countP QFrame.inAttempt = _ from hcount]; decide
  obtain ⟨f, hf, ha⟩ := List.countP_pos_iff.mp hpos
  cases h : attempted s with
  | some g => exact ⟨g, rfl⟩
  | none => exact absurd ha (by simpa using List.find?_eq_none.mp h f hf)

/-- Outside an attempt a sound queue has none (R41). -/
theorem attempted_none (s : State) (hq : QueueSound s) (hx : attemptState s.lcu.tx = false) : attempted s = none := by
  cases h : attempted s with
  | none => rfl
  | some f =>
    obtain ⟨-, -, -, ha, -⟩ := attempted_sound s f hq h
    rw [hx] at ha
    cases ha

/-- The end of an attempt reads neither the line interface nor the fault log's note of a dominant period. -/
theorem endAttempt_atLine (e : AttemptEnd) (f : QFrame) (s : State) (x : Lif) (d : Option (Nat × Nat)) (hq : QueueSound s)
    (hf : attempted s = some f) :
    endAttempt e ((s.withLif x).withLcu { s.lcu with domFrame := d }) =
      atLine (endAttempt e s) x { (endAttempt e s).lcu with domFrame := d } 0 := by
  rw [endAttempt_eq e f ((s.withLif x).withLcu { s.lcu with domFrame := d }) hq hf, endAttempt_eq e f s hq hf,
    atLine_zero]
  rfl

/-- The end of an attempt leaves the rest of the state alone. -/
theorem endAttempt_sameBeside (e : AttemptEnd) (f : QFrame) (s : State) (hq : QueueSound s) (hf : attempted s = some f) :
    SameBeside s (endAttempt e s) := by
  rw [endAttempt_eq e f s hq hf]
  exact ⟨rfl, rfl, rfl, fun b hb => by cases b <;> simp_all [Block.same, attemptEnded]⟩

/-- A step that ends the attempt in progress and else moves line interface, line controller and flags. -/
theorem leavesAs_atLine (e : AttemptEnd) (f : QFrame) (s : State) (x : Lif) (l : Lcu) (r : BitVec 14) (hq : QueueSound s)
    (hf : attempted s = some f) : LeavesAs (endAttempt e s) r s (refresh (atLine (endAttempt e s) x l r)) := by
  obtain ⟨hblink, hdisplay, hpend, hout, hsame⟩ := ((endAttempt_sameBeside e f s hq hf).atLine x l r).refresh
  exact ⟨rfl, rfl, rfl, rfl, refresh_flash _, hblink, hdisplay, rfl, hpend, hout, hsame⟩

/-- A step that ends the attempt in progress and else moves line interface and the fault log's note. -/
theorem endsAttempt_atLine (e : AttemptEnd) (f : QFrame) (s : State) (x : Lif) (d : Option (Nat × Nat)) (hq : QueueSound s)
    (hf : attempted s = some f) :
    EndsAttempt e s (refresh (atLine (endAttempt e s) x { (endAttempt e s).lcu with domFrame := d } 0)) :=
  ⟨rfl, leavesAs_atLine e f s x _ 0 hq hf⟩

/-- Such a step at a plain attempt (R41, R42). -/
theorem plain_atLine (e : AttemptEnd) (f : QFrame) (s : State) (x : Lif) (d : Option (Nat × Nat)) (hq : QueueSound s)
    (hp : PlainAttempt f s) (he : e ≠ .taken) (hc : e.counted = true → f.attempts < 3) :
    let t := refresh (atLine (endAttempt e s) x { (endAttempt e s).lcu with domFrame := d } 0)
    t.lcu =
        { s.lcu with
          queue := ended (if e.counted then 1 else 0) s.lcu.queue, tx := .waiting
          history := entered [.waiting] s.lcu.history, domFrame := d } ∧
      StepFrame [.lif, .lcu] 0 s t := by
  rw [endAttempt_plain e s f hq hp he hc]
  exact ⟨rfl, atLine_stepFrame s x _ 0⟩

/-- The transmitter after an attempt: IDLE or WAITING (R41). -/
theorem endAttempt_tx (e : AttemptEnd) (s : State) :
    (endAttempt e s).lcu.tx = if (endAttempt e s).lcu.queue = [] then .idle else .waiting := by
  unfold endAttempt
  rw [settleTx_lcu]

/-- Outside its own start mark a station whose present pulse it does not drive is silent (R16, R17). -/
theorem driveOf_closed (s : State) (h : s.lif.opened = false) (h1 : s.lcu.tx ≠ .contending) (h2 : s.lcu.tx ≠ .sending) :
    driveOf s = none := by
  unfold driveOf senderSlotDrive receiverDrive
  split
  · cases hx : s.lcu.tx <;> simp_all
  · rfl

end Sys2Proof.Machine

namespace Sys2Proof.Machine

open Sys2Proof.Safety

/-! ### Contention and sending (R27, R34) -/

/-- A station stops driving with the cell just read: its attempt ends at line interface and line controller (R27, R28). -/
theorem breakAttempt_eq (e : AttemptEnd) (f : QFrame) (cells : List CellReading) (s : State) (hq : QueueSound s)
    (hf : attempted s = some f) :
    breakAttempt e (stopDriving cells s) =
      atLine (endAttempt e s)
        { s.lif with decode := decodeAt cells, idleSeen := false, cells := cells, opened := false }
        { (endAttempt e s).lcu with domFrame := retag e s } 0 :=
  endAttempt_atLine e f s _ (retag e s) hq hf

/-- The cells of a broken attempt: those sent before it as sent, the last as read. -/
theorem brokenCells_length (cell : Nat) (r : CellReading) (s : State) (h : cell < (sentBits s).length) :
    (cleanCells ((sentBits s).take cell) ++ [r]).length = cell + 1 := by
  simp [cleanCells, Nat.min_eq_left h.le]

theorem loseArbitration_eq (cell : Nat) (f : QFrame) (s : State) (hq : QueueSound s) (hf : attempted s = some f)
    (h10 : cell < 10) (hb : (sentBits s)[cell]? = some true) :
    loseArbitration cell s =
      atLine (endAttempt .lost s)
        { s.lif with
          decode := .frame, idleSeen := false, opened := false, cells := cleanCells ((sentBits s).take cell) ++ [.zero] }
        { (endAttempt .lost s).lcu with domFrame := none } 0 := by
  obtain ⟨hlt, -⟩ := List.getElem?_eq_some_iff.mp hb
  have hd : decodeAt (cleanCells ((sentBits s).take cell) ++ [.zero]) = .frame :=
    decodeAt_short _ (by rw [brokenCells_length cell .zero s hlt]; omega)
  unfold loseArbitration
  rw [breakAttempt_eq .lost f _ s hq hf, hd]
  rfl

/-- Settles O27: ARBITRATION_LOST by the end of its attempt, ARBITRATION_WON and SLOTS_REACHED by what they enter. -/
theorem contention : Obligations.Contention := by
  intro s
  refine ⟨fun cell hx h10 hb hq => ?_, fun hx => ?_, fun hx => ?_⟩
  · obtain ⟨f, hf⟩ := attempted_exists s hq (by rw [hx]; rfl)
    refine ⟨_, when_occurs (loseArbitration cell) s (by simp [canLose, hx, hb, contentionCells, h10]), ?_⟩
    rw [loseArbitration_eq cell f s hq hf h10 hb]
    exact ⟨rfl, rfl, endsAttempt_atLine .lost f s _ none hq hf, fun g hg =>
      plain_atLine .lost g s _ none hq hg (by decide) (fun h => by cases h)⟩
  · have he : winArbitration s =
        atLine s { s.lif with decode := .frame, idleSeen := false, cells := cleanCells ((sentBits s).take 10) }
          { s.lcu with tx := .sending, history := entered [.sending] s.lcu.history } 0 := by
      have hr : (TxState.sending == TxState.recovering) = false := rfl
      simp [winArbitration, enterTx, inFrame, atLine, entered, contentionCells, hr, State.withLif, State.withLcu]
    refine ⟨_, when_occurs winArbitration s (by simp [hx]), ?_⟩
    rw [he]
    exact ⟨rfl, rfl, atLine_stepFrame s _ _ 0⟩
  · have he : reachSlots s =
        atLine s { s.lif with decode := .tail, idleSeen := false, cells := cleanCells (sentBits s) }
          { s.lcu with tx := .slots, history := entered [.slots] s.lcu.history } 0 := by
      have hr : (TxState.slots == TxState.recovering) = false := rfl
      simp [reachSlots, enterTx, inFrame, atLine, entered, hr, State.withLif, State.withLcu]
    refine ⟨_, when_occurs reachSlots s (by simp [hx]), ?_⟩
    rw [he]
    exact ⟨rfl, rfl, atLine_stepFrame s _ _ 0⟩

/-! ### A mismatched bit (R28 to R30) -/

/-- After clean cells a receiver leaves the frame on a missing cell, or on a width error up to the length field (R30). -/
theorem beginsRun_snoc (bits : List Bool) (r : CellReading) :
    beginsRun (cleanCells bits ++ [r]) = true ↔ r = .missing ∨ r = .widthError ∧ bits.length < 23 := by
  have hclean : ∀ c ∈ cleanCells bits, c ≠ .missing ∧ c ≠ .widthError := by
    intro c hc
    obtain ⟨b, -, rfl⟩ := List.mem_map.mp hc
    cases b <;> decide
  have h1 : (cleanCells bits).all (· != .missing) = true := by simpa using fun c hc => (hclean c hc).1
  have h2 : ((cleanCells bits).take headerCells).all (· != .widthError) = true := by
    simpa using fun c hc => (hclean c (List.mem_of_mem_take hc)).2
  have hlen : (cleanCells bits ++ [r]).length = bits.length + 1 := by simp [cleanCells]
  unfold beginsRun
  rw [hlen]
  simp only [List.reverse_append, List.reverse_cons, List.reverse_nil, List.nil_append, List.singleton_append,
    List.all_reverse, List.reverse_reverse, h1, h2, Bool.true_and]
  simp only [Bool.or_eq_true, Bool.and_eq_true, beq_iff_eq, decide_eq_true_eq]
  exact Iff.rfl

/-- Which cell of a frame is its last CRC cell depends on its header alone (R23, R29). -/
theorem decodeAt_broken (f : Frame) (cell : Nat) (r : CellReading) (h : cell < (wireBits f).length) :
    decodeAt (cleanCells ((wireBits f).take cell) ++ [r]) = if cell + 1 = (wireBits f).length then .tail else .frame := by
  have hlen : (cleanCells ((wireBits f).take cell) ++ [r]).length = cell + 1 := by simp [cleanCells, Nat.min_eq_left h.le]
  have hwire := wireBits_length f
  by_cases h23 : cell < 23
  · rw [if_neg (by omega)]
    by_cases hc : cell < 22
    · exact decodeAt_short _ (by omega)
    · have hp : placedCells (cleanCells ((wireBits f).take cell) ++ [r]) ≠ some (cell + 1) := by
        unfold placedCells
        rw [hlen, if_neg (by simp only [headerCells]; omega)]
        cases readBits ((cleanCells ((wireBits f).take cell) ++ [r]).take headerCells) with
        | none => simp
        | some header => simp only [Option.map_some, ne_eq, Option.some.injEq, headerCells]; omega
      rw [decodeAt, hlen, if_neg hp]
  · have hhead : (cleanCells ((wireBits f).take cell) ++ [r]).take headerCells =
        ((cleanCells (wireBits f)).take cell).take headerCells := by
      rw [List.take_append_of_le_length (by simp [cleanCells, headerCells]; omega)]
      simp [cleanCells]
    have hplaced : placedCells (cleanCells ((wireBits f).take cell) ++ [r]) =
        some (39 + 8 * (payloadBytes f.body).length) := by
      rw [← placedCells_prefix f ((cleanCells (wireBits f)).take cell) (List.take_prefix _ _)
        (by simp [cleanCells]; omega)]
      unfold placedCells
      rw [hlen, hhead, if_neg (by simp [headerCells]; omega), if_neg (by simp [cleanCells, headerCells]; omega)]
    unfold decodeAt
    rw [hplaced, hlen, hwire]
    simp only [Option.some.injEq, eq_comm]

/-- A station with an attempt sends the bits of one frame. -/
theorem sentBits_attempted (f : QFrame) (s : State) (hf : attempted s = some f) : sentBits s = wireBits (frameOf s f) := by
  simp [sentBits, hf]

/-- What a mismatched bit leaves: a receiver with the cell as read, or an objection run (R27 to R30). -/
theorem mismatch_eq (cell : Nat) (r : CellReading) (f : QFrame) (s : State) (hq : QueueSound s) (hf : attempted s = some f)
    (h : cell < (sentBits s).length) :
    mismatch cell r s =
      atLine (endAttempt .mismatch s)
        (if r = .missing ∨ r = .widthError ∧ cell < 23 then { hunted s.lif with run := true }
         else
          { s.lif with
            decode := if cell + 1 = (sentBits s).length then .tail else .frame
            idleSeen := false, opened := false, cells := cleanCells ((sentBits s).take cell) ++ [r] })
        { (endAttempt .mismatch s).lcu with domFrame := s.lcu.domFrame.map fun _ => (f.place.cls, f.attempts + 1) } 0 := by
  have htag : retag .mismatch s = s.lcu.domFrame.map fun _ => (f.place.cls, f.attempts + 1) := by
    cases hd : s.lcu.domFrame <;> simp [retag, hf, hd, countAfter, AttemptEnd.counted]
  have hruns : beginsRun (cleanCells ((sentBits s).take cell) ++ [r]) = true ↔
      r = .missing ∨ r = .widthError ∧ cell < 23 := by
    rw [beginsRun_snoc, List.length_take, Nat.min_eq_left h.le]
  have hdec : decodeAt (cleanCells ((sentBits s).take cell) ++ [r]) =
      if cell + 1 = (sentBits s).length then .tail else .frame := by
    rw [sentBits_attempted f s hf] at h ⊢
    exact decodeAt_broken (frameOf s f) cell r h
  have hdrives : drivesSlots (endAttempt .mismatch s) = true := by
    obtain ⟨-, -, -, hx, hw⟩ := attempted_sound s f hq hf
    have hkept := (endAttempt_keptSound .mismatch s hx).atWork
    have htx := endAttempt_tx .mismatch s
    unfold drivesSlots
    rw [hkept, hw, htx]
    split <;> rfl
  unfold mismatch
  dsimp only
  rw [breakAttempt_eq .mismatch f _ s hq hf, htag, hdec]
  split
  · rename_i hb
    rw [if_pos (hruns.mp hb)]
    have hd : drivesSlots (atLine (endAttempt .mismatch s)
        { s.lif with
          decode := if cell + 1 = (sentBits s).length then .tail else .frame
          idleSeen := false, cells := cleanCells ((sentBits s).take cell) ++ [r], opened := false }
        { (endAttempt .mismatch s).lcu with domFrame := s.lcu.domFrame.map fun _ => (f.place.cls, f.attempts + 1) } 0) =
        true := hdrives
    unfold leaveFrame
    rw [hd]
    rfl
  · rename_i hb
    rw [if_neg (hruns.not.mp hb)]

/-- The reading and the cell are those of a mismatch (R27, R28). -/
theorem mismatches_occurs (cell : Nat) (r : CellReading) (sent : Bool) (s : State) (hb : (sentBits s)[cell]? = some sent)
    (hr : r ≠ .ofBit sent)
    (hx : s.lcu.tx = .contending ∧ cell < 10 ∧ ¬(sent = true ∧ r = .zero) ∨ s.lcu.tx = .sending ∧ 10 ≤ cell) :
    mismatches cell r s = true := by
  unfold mismatches
  rw [hb]
  rcases hx with ⟨htx, hc, hn⟩ | ⟨htx, hc⟩
  · have hz : ((sent && r == .zero) = false) := by simpa using hn
    simp [hr, htx, hc, contentionCells, hz]
  · simp [hr, htx, hc, contentionCells]

/-- Settles O28, by what a mismatched bit leaves at the line and by the end of its attempt. -/
theorem bitMismatch : Obligations.BitMismatch := by
  intro s cell pulse sent f hb hr hx hq hf
  obtain ⟨hlt, -⟩ := List.getElem?_eq_some_iff.mp hb
  have htx := endAttempt_tx .mismatch s
  refine ⟨_, when_occurs (mismatch cell (readCell pulse)) s (mismatches_occurs cell _ sent s hb hr hx), ?_⟩
  rw [mismatch_eq cell (readCell pulse) f s hq hf hlt]
  refine ⟨driveOf_closed _ ?_ ?_ ?_, rfl, rfl, endsAttempt_atLine .mismatch f s _ _ hq hf, fun hp hn =>
    plain_atLine .mismatch f s _ _ hq hp (by decide) fun _ => hn⟩
  · rw [atLine_lif]; split <;> rfl
  · rw [atLine_lcu, htx]; split <;> decide
  · rw [atLine_lcu, htx]; split <;> decide

end Sys2Proof.Machine

namespace Sys2Proof.Machine

open Sys2Proof.Safety

/-! ### A frame discarded (R29 to R32) -/

/-- The end of a frame at this station, as a step of line interface and line controller (R19, R31). -/
theorem frameEnd_eq (s : State) : frameEnd s = atLine s (hunted s.lif) (lcuIdle s) 0 := (atLine_zero _ _ _).symm

/-- FRAME and TAIL are the decode states inside a frame. -/
theorem inside_iff (d : Decode) : d.inside = true ↔ d = .frame ∨ d = .tail := by cases d <;> simp [Decode.inside]

/-- Outside an attempt of its own a station drives slots in IDLE and WAITING alone (R16, R41). -/
theorem drivesSlots_receiver (s : State) (hw : s.suu.startUp.atWork = true) (h1 : s.lcu.tx ≠ .contending)
    (h2 : s.lcu.tx ≠ .sending) (h3 : s.lcu.tx ≠ .slots) :
    drivesSlots s = (s.lcu.tx == .idle || s.lcu.tx == .waiting) := by
  unfold drivesSlots
  rw [hw]
  cases hx : s.lcu.tx <;> simp_all [TxState.working]

/-- The sender's objection slot read 0 ends its attempt, by the reading of its ack slot (R31; log 22). -/
theorem slotReport_zero (a o : CellReading) (h : o = .zero) :
    slotReport a o = .ended (if a = .zero then .objected else .unheard) := by
  subst h
  cases a <;> rfl

/-- A bad objection slot gives no report (R18, R31). -/
theorem slotReport_bad (a o : CellReading) (h : o = .widthError ∨ o = .missing) : slotReport a o = .silent := by
  rcases h with rfl | rfl <;> cases a <;> rfl

/-- The sender's discard that ends its attempt. -/
theorem discard_ended (a o : CellReading) (e : AttemptEnd) (f : QFrame) (s : State) (hq : QueueSound s)
    (hf : attempted s = some f) (hx : s.lcu.tx = .slots) (hr : slotReport a o = .ended e) :
    discard a o s =
      atLine (endAttempt e s) (hunted s.lif) { (endAttempt e s).lcu with domFrame := none } 0 := by
  have hs : inSlots s = true := by simp [inSlots, hx]
  unfold discard
  rw [hs, hr]
  exact endAttempt_atLine e f s _ none hq hf

/-- A discard without a report ends the frame alone (R31, R32). -/
theorem discard_frameEnd (a o : CellReading) (s : State) (h : s.lcu.tx ≠ .slots ∨ slotReport a o = .silent) :
    discard a o s = frameEnd s := by
  unfold discard
  rcases h with h | h
  · have hs : inSlots s = false := by simp [inSlots, h]
    rw [hs]
  · rw [h]
    split
    · rename_i h2; cases h2
    · rfl

/-- A receiver discards a frame that it read cleanly and whose objection slot is not 1, and one in error unless its own
objection was to be read (R30 to R32). -/
theorem receiverDiscards_holds (s : State) (r : Reception) (a o : CellReading) (ha : a ≠ .missing) (ho : o ≠ .missing)
    (h : (∃ f, r = .clean f ∧ o ≠ .one) ∨ ∃ e k, r = .errored e k ∧ (drivesSlots s = true → o ≠ .one)) :
    receiverDiscards s r a o = true := by
  rcases h with ⟨f, rfl, h1⟩ | ⟨e, k, rfl, h1⟩
  · simp [receiverDiscards, ha, ho, h1]
  · cases hd : drivesSlots s
    · simp [receiverDiscards, ha, ho, hd]
    · simp [receiverDiscards, ha, ho, h1 hd]

/-- Settles O29: the sender by the report of its slots, a receiver by its reading of the frame. -/
theorem frameDiscarded : Obligations.FrameDiscarded := by
  intro s cells ack objection hst hdec
  have hw : s.suu.startUp.atWork = true := by simpa [atWork_eq] using hst
  have hin : s.lif.decode.inside = true := (inside_iff _).mpr hdec
  have hquiet : ∀ a o, (s.lcu.tx ≠ .slots ∨ slotReport a o = .silent) →
      (refresh (discard a o s)).lif = hunted s.lif ∧ (refresh (discard a o s)).lcu = lcuIdle s ∧
        StepFrame [.lif, .lcu] 0 s (refresh (discard a o s)) := by
    intro a o h
    rw [discard_frameEnd a o s h, frameEnd_eq]
    exact ⟨rfl, rfl, atLine_stepFrame s _ _ 0⟩
  refine ⟨fun hx hcells => ?_, fun h1 h2 h3 hpre ha ho hr => ?_⟩
  · have hs : inSlots s = true := by simp [inSlots, hx]
    have hoccurs : slotReport (readCell ack) (readCell objection) ≠ .noDiscard →
        canDiscard (cells.map readCell) (readCell ack) (readCell objection) s = true := by
      intro hr
      simp [canDiscard, hw, hin, hx, hs, hcells, hr]
    refine ⟨fun hz hq => ?_, fun hb => ?_⟩
    · obtain ⟨f, hf⟩ := attempted_exists s hq (by rw [hx]; rfl)
      have hrep := slotReport_zero (readCell ack) _ hz
      refine ⟨_, when_occurs (discard (readCell ack) (readCell objection)) s (hoccurs (by rw [hrep]; simp)), ?_⟩
      rw [discard_ended _ _ _ f s hq hf hx hrep]
      refine ⟨rfl, rfl, endsAttempt_atLine _ f s _ none hq hf, fun g hg hn => ?_⟩
      by_cases hack : readCell ack = .zero
      · rw [if_pos hack]
        exact plain_atLine .objected g s _ none hq hg (by decide) fun _ => hn
      · rw [if_neg hack]
        exact plain_atLine .unheard g s _ none hq hg (by decide) fun _ => hn
    · have hrep := slotReport_bad (readCell ack) (readCell objection) hb
      exact ⟨_, when_occurs (discard (readCell ack) (readCell objection)) s (hoccurs (by rw [hrep]; decide)),
        hquiet _ _ (.inr hrep)⟩
  · have hs : inSlots s = false := by simp [inSlots, h3]
    have hdrives := drivesSlots_receiver s hw h1 h2 h3
    have hdisc : receiverDiscards s (receive (cells.map readCell)) (readCell ack) (readCell objection) = true := by
      refine receiverDiscards_holds s _ _ _ ha ho (hr.imp_right fun ⟨e, k, he, hn⟩ => ⟨e, k, he, fun hd => hn ?_⟩)
      simpa [hdrives] using hd
    have hoccurs : canDiscard (cells.map readCell) (readCell ack) (readCell objection) s = true := by
      simp [canDiscard, hw, hin, h1, h2, hs, hdisc, List.isPrefixOf_iff_prefix, hpre]
    exact ⟨_, when_occurs (discard (readCell ack) (readCell objection)) s hoccurs, hquiet _ _ (.inl h3)⟩

end Sys2Proof.Machine

namespace Sys2Proof.Machine

open Sys2Proof.Safety

/-! ### LINE_IDLE, START_MARK_RECOGNIZED, OBJECTION_RUN_BEGUN (R19, R20, R22, R30, R31, R40) -/

/-- The line interface on an idle line. -/
def idleLif (x : Lif) : Lif := { x with idleSeen := true, run := false }

/-- The line controller that offers its first frame (R40, R41). -/
def lcuOffers (s : State) (l : Lcu) : Lcu :=
  { l with queue := offered s l.queue, tx := .contending, history := entered [.contending] l.history }

/-- What an attempt carries is read from round context and scoreboard alone (R40). -/
theorem offered_congr (s u : State) (h : ∀ f, begun u f = begun s f) (q : List QFrame) : offered u q = offered s q := by
  cases q with
  | nil => rfl
  | cons f rest => simp [offered, h]

/-- A station WAITING for more than nothing offers on what it is left with. -/
theorem offer_atLine (s u : State) (x : Lif) (l : Lcu) (h : l.queue ≠ []) (hb : ∀ f, begun u f = begun s f) :
    offer (atLine u x l 0) = atLine u x (lcuOffers s l) 0 := by
  rw [offer_eq _ h, offered_congr s (atLine u x l 0) (fun f => ?_)]
  · rfl
  · rw [← hb f, atLine_zero]
    rfl

/-- LINE_IDLE: an attempt left in its slots ends, and a WAITING station offers (R31, R40). -/
theorem reachIdle_eq (s : State) (u : State)
    (hu : u = if s.lcu.tx = .slots then endAttempt .objected (s.withLif (idleLif s.lif)) else s.withLif (idleLif s.lif)) :
    reachIdle s = if u.lcu.tx = .waiting then offer u else u := by
  rw [hu]
  rfl

/-- LINE_IDLE at a station neither in its slots nor WAITING (R19, R30). -/
theorem reachIdle_quiet (s : State) (h1 : s.lcu.tx ≠ .slots) (h2 : s.lcu.tx ≠ .waiting) :
    reachIdle s = atLine s (idleLif s.lif) s.lcu 0 := by
  rw [reachIdle_eq s _ (if_neg h1).symm, State.withLif_lcu, if_neg h2, withLif_atLine]

/-- LINE_IDLE at a WAITING station (R40). -/
theorem reachIdle_waiting (s : State) (hx : s.lcu.tx = .waiting) (hne : s.lcu.queue ≠ []) :
    reachIdle s = atLine s (idleLif s.lif) (lcuOffers s s.lcu) 0 := by
  have h1 : s.lcu.tx ≠ .slots := by rw [hx]; decide
  rw [reachIdle_eq s _ (if_neg h1).symm, State.withLif_lcu, if_pos hx, withLif_atLine,
    offer_atLine s s _ _ hne fun _ => rfl]

/-- The end of an attempt does not read the line interface. -/
theorem endAttempt_withLif (e : AttemptEnd) (f : QFrame) (s : State) (x : Lif) (hq : QueueSound s)
    (hf : attempted s = some f) : endAttempt e (s.withLif x) = atLine (endAttempt e s) x (endAttempt e s).lcu 0 := by
  rw [endAttempt_eq e f (s.withLif x) hq hf, endAttempt_eq e f s hq hf, atLine_zero]
  rfl

/-- LINE_IDLE at a station left in its slots: OBJECTED, and the first frame left is offered (R31, R40). -/
theorem reachIdle_slots (f : QFrame) (s : State) (hq : QueueSound s) (hf : attempted s = some f) (hx : s.lcu.tx = .slots) :
    reachIdle s =
      atLine (endAttempt .objected s) (idleLif s.lif)
        (if (endAttempt .objected s).lcu.queue = [] then (endAttempt .objected s).lcu
         else lcuOffers s (endAttempt .objected s).lcu) 0 := by
  have hbegun : ∀ g, begun (endAttempt .objected s) g = begun s g := by
    intro g
    rw [endAttempt_eq .objected f s hq hf]
    rfl
  rw [reachIdle_eq s _ (if_pos hx).symm, endAttempt_withLif .objected f s _ hq hf, atLine_lcu, endAttempt_tx]
  by_cases hne : (endAttempt .objected s).lcu.queue = []
  · simp [hne]
  · rw [if_neg hne, if_pos rfl, if_neg hne]
    exact offer_atLine s _ _ _ hne hbegun

/-- A recognised start mark leaves the decode state alone changed (R20). -/
theorem beginReceiving_eq (s : State) :
    beginReceiving s =
      atLine s { s.lif with decode := .frame, idleSeen := false, cells := [], opened := true, since := 0, ack := none }
        s.lcu 0 := withLif_atLine _ _

theorem leaveFrame_eq (s : State) :
    leaveFrame s = atLine s { hunted s.lif with run := drivesSlots s } s.lcu 0 := withLif_atLine _ _

/-- Settles O26, row by row, LINE_IDLE by the transmitter's state. -/
theorem lineRows : Obligations.LineRows := by
  refine ⟨fun s hd hdom => ?_, fun s hst => ?_⟩
  · have hexec : exec .lineIdle s = .next (refresh (reachIdle s)) := when_occurs reachIdle s (by simp [hd, hdom])
    refine ⟨fun h1 h2 => ⟨_, hexec, ?_⟩, fun hx hne => ⟨_, hexec, ?_⟩, fun hx hq f hp hn => ⟨_, hexec, ?_⟩,
      fun hx hq => ⟨_, hexec, ?_⟩⟩
    · rw [reachIdle_quiet s h1 h2]
      exact ⟨rfl, lif_stepFrame s _ 0⟩
    · rw [reachIdle_waiting s hx hne]
      exact ⟨rfl, rfl, atLine_stepFrame s _ _ 0⟩
    · have hplain := endAttempt_plain .objected s f hq hp (by decide) fun _ => hn
      have hmem : f ∈ s.lcu.queue := List.mem_of_find?_eq_some hp.1
      have hne : (endAttempt .objected s).lcu.queue ≠ [] := by
        rw [hplain]
        exact fun h => List.ne_nil_of_mem hmem (List.map_eq_nil_iff.mp h)
      rw [reachIdle_slots f s hq hp.1 hx, if_neg hne, hplain]
      exact ⟨rfl, rfl, atLine_stepFrame s _ _ 0⟩
    · obtain ⟨f, hf⟩ := attempted_exists s hq (by rw [hx]; rfl)
      rw [reachIdle_slots f s hq hf hx]
      exact ⟨rfl, leavesAs_atLine .objected f s _ _ 0 hq hf, rfl⟩
  · have hw : s.suu.startUp.atWork = true := by simpa [atWork_eq] using hst
    refine ⟨fun hd hi hdom => ?_, fun cells hdec h1 h2 h3 hpre hruns => ?_⟩
    · refine ⟨_, when_occurs beginReceiving s (by simp [hw, edgePending, hd, hi, hdom]), ?_⟩
      rw [beginReceiving_eq]
      exact ⟨rfl, lif_stepFrame s _ 0⟩
    · have hin : s.lif.decode.inside = true := (inside_iff _).mpr hdec
      refine ⟨_, when_occurs leaveFrame s
        (by simp [canLeave, hw, hin, h1, h2, h3, List.isPrefixOf_iff_prefix, hpre, hruns]), ?_⟩
      rw [leaveFrame_eq, drivesSlots_receiver s hw h1 h2 h3]
      exact ⟨rfl, lif_stepFrame s _ 0⟩

end Sys2Proof.Machine

namespace Sys2Proof.Machine

open Sys2Proof.Safety

/-! ### The entry to HALTED (R43, R49, R53) -/

/-- HALTED entered: every queued frame dropped and its hander told, a JOINING station JOINED (R43, R49). -/
theorem enterHalted_eq (z : State) :
    enterHalted z =
      enterJoined (framesDropped z.lcu.queue (setQueue [] (stopTimers (raise .halted (enterTx .halted z))))) := by
  unfold enterHalted emptyQueue
  rw [foldDrop_eq]
  rfl

theorem enterHalted_sameBeside {s z : State} (h : SameBeside s z) : SameBeside s (enterHalted z) := by
  obtain ⟨hpnl, hcmp, hpend, hothers⟩ := h
  rw [enterHalted_eq, enterJoined_eq]
  refine ⟨?_, ?_, hpend, fun b hb => ?_⟩
  · simp only [State.withSuu_pnl, framesDropped, setQueue, stopTimers, enterTx, raise, State.withLcu_pnl, State.withCmp_pnl]
    rw [hpnl]
  · simp only [State.withSuu_cmp, framesDropped, setQueue, stopTimers, enterTx, raise, State.withLcu_cmp, State.withCmp_cmp]
    rw [hcmp]
  · have h := hothers b hb
    clear hpnl hcmp hothers
    cases b <;> simp_all [Block.same, framesDropped]

/-- HALTED entered by a transmitter with this log, from what u leaves. -/
theorem enterHalted_halts (s u : State) (x : Lif) (tx : TxState) (log : List FaultRec) (r : BitVec 14)
    (h : SameBeside s u) :
    Halts u log r s
      (refresh (enterHalted (atLine u x { u.lcu with tx := tx, history := s.lcu.history, log := log } r))) := by
  have hr : (TxState.halted == TxState.recovering) = false := rfl
  obtain ⟨hblink, hdisplay, hpend, hout, hsame⟩ := (enterHalted_sameBeside (h.atLine x
    { u.lcu with tx := tx, history := s.lcu.history, log := log } r)).refresh
  refine ⟨?_, ⟨?_, ?_, ?_, ?_, ?_, ?_⟩, hblink, hdisplay, ?_, hpend, hout, hsame⟩ <;> rw [enterHalted_eq]
  · simp [framesDropped, setQueue, stopTimers, enterTx, entered, hr]
  · simp [framesDropped]
  · rw [enterJoined_eq]; rfl
  · rw [refresh_flash, enterJoined_eq]; rfl
  · rw [enterJoined_eq]; rfl
  · rw [enterJoined_eq]; rfl
  · rw [refresh_suu, joined_dropped]
    rfl
  · rw [enterJoined_eq]; rfl

/-! ### LINE_FAULT (R21, R44, R48, R51 to R53) -/

/-- The line interface after a line fault (R19, R21). -/
def faultedLif (x : Lif) : Lif := { hunted x with faultFound := true }

/-- The attempt in progress at a line fault is over, and u is what its end leaves, transmitter and history aside; the record
names this frame (R42, R52; log 20). -/
structure FaultResolved (s u : State) (frame : Option (Nat × Nat)) : Prop where
  resolved : resolve .lineFault (faultAtLine s) =
    atLine u (faultedLif s.lif) { u.lcu with tx := s.lcu.tx, history := s.lcu.history } 0
  names : faultFrame (faultAtLine s) = frame
  log : u.lcu.log = s.lcu.log
  memory : u.lcu.faultMemory = s.lcu.faultMemory
  round : u.rng.round = s.rng.round
  clock : u.rck.count = s.rck.count
  beside : SameBeside s u

/-- Outside an attempt there is none to end. -/
theorem faultResolved_none (s : State) (h : attempted s = none) : FaultResolved s s s.lcu.domFrame := by
  have ha : attempted (faultAtLine s) = none := h
  refine ⟨?_, ?_, rfl, rfl, rfl, rfl, .refl s⟩
  · rw [atLine_zero]
    simp only [resolve, ha]
    rfl
  · simp only [faultFrame, ha]
    rfl

/-- In an attempt it ends counted (R42). -/
theorem faultResolved_attempt (f : QFrame) (s : State) (hq : QueueSound s) (hf : attempted s = some f) :
    FaultResolved s (endAttempt .lineFault s) (some (f.place.cls, f.attempts + 1)) := by
  have ha : attempted (faultAtLine s) = some f := hf
  have hbeside := endAttempt_sameBeside .lineFault f s hq hf
  have hend := endAttempt_eq .lineFault f s hq hf
  refine ⟨?_, ?_, ?_, ?_, ?_, ?_, hbeside⟩
  · have hsettle : settleTx (attemptEnded .lineFault f s) =
        (attemptEnded .lineFault f s).withLcu (settleTx (attemptEnded .lineFault f s)).lcu := rfl
    rw [resolve_eq .lineFault f (faultAtLine s) hq hf, hend, atLine_zero, hsettle, settleTx_lcu]
    rfl
  · simp [faultFrame, ha, countAfter, AttemptEnd.counted]
  all_goals rw [hend]; rfl

/-- What the line controller is at when it writes its record. -/
theorem faultAtController_open (s u : State) (frame : Option (Nat × Nat)) (h : FaultResolved s u frame)
    (hs : s.lcu.tx.shut = false) :
    faultAtController (faultAtLine s) =
      let z := atLine u (faultedLif s.lif) { u.lcu with tx := s.lcu.tx, history := s.lcu.history } Event.lineFault.flag
      if s.lcu.tx = .recovering ∨ s.lcu.faultMemory.on = true then doubleFault frame z
      else enterRecovering (writeRecord .stuck frame z) := by
  obtain ⟨hres, hframe, -, hmem, -, -, -⟩ := h
  have hs' : (faultAtLine s).lcu.tx.shut = false := hs
  have hz : raise .lineFault (resolve .lineFault (faultAtLine s)) =
      atLine u (faultedLif s.lif) { u.lcu with tx := s.lcu.tx, history := s.lcu.history } Event.lineFault.flag := by
    rw [hres, atLine_zero]
    rfl
  unfold faultAtController
  rw [hs', if_neg (by simp), hframe]
  dsimp only
  rw [hz, ← hmem]
  rfl

/-- The first fault: a STUCK record and RECOVERING (R44). -/
theorem fault_recovers (s u : State) (frame : Option (Nat × Nat)) (h : FaultResolved s u frame)
    (hs : s.lcu.tx.shut = false) (hx : s.lcu.tx ≠ .recovering) (hm : s.lcu.faultMemory = .off) :
    faultAtController (faultAtLine s) =
      atLine u (faultedLif s.lif)
        { u.lcu with
          tx := .recovering, history := entered [.recovering] s.lcu.history
          log := appendRecord (faultRecord .stuck frame s) s.lcu.log, recovered := true
          recoveryDeadline := .running 200000, recoveryQuiet := .off } Event.lineFault.flag := by
  have hrec : ∀ b, (b || TxState.recovering == TxState.recovering) = true := by decide
  rw [faultAtController_open s u frame h hs]
  dsimp only
  rw [if_neg (by simp [hx, hm, Timer.on]), ← h.log]
  unfold enterRecovering enterTx writeRecord faultRecord
  simp only [hrec, atLine, State.withLcu, h.round, h.clock]
  rfl

/-- The double fault: its record, the newest STUCK record escalated, HALTED (R48, R53). -/
theorem fault_halts (s u : State) (frame : Option (Nat × Nat)) (h : FaultResolved s u frame) (hs : s.lcu.tx.shut = false)
    (hx : s.lcu.tx = .recovering ∨ s.lcu.faultMemory.on = true) :
    faultAtController (faultAtLine s) =
      enterHalted
        (atLine u (faultedLif s.lif)
          { u.lcu with
            tx := s.lcu.tx, history := s.lcu.history
            log := (escalateNewest (appendRecord (faultRecord .doubleFault frame s) s.lcu.log).reverse).reverse }
          Event.lineFault.flag) := by
  rw [faultAtController_open s u frame h hs]
  dsimp only
  rw [if_pos hx, ← h.log]
  unfold doubleFault escalate writeRecord faultRecord
  simp only [atLine, State.withLcu, h.round, h.clock]

/-- Under a shut transmitter a line fault is reported and nothing more (R49, R50). -/
theorem fault_shut (s : State) (hs : s.lcu.tx.shut = true) :
    faultAtController (faultAtLine s) = atLine s (faultedLif s.lif) s.lcu Event.lineFault.flag := by
  have hs' : (faultAtLine s).lcu.tx.shut = true := hs
  unfold faultAtController
  rw [if_pos hs']
  rfl

/-- The first LINE_FAULT of a dominant period, at a station at work (R21). -/
theorem lineFault_occurs (s : State) (hw : s.suu.startUp.atWork = true) (hdom : s.lif.dominant = true)
    (hfound : s.lif.faultFound = false) : exec .lineFault s = .next (refresh (faultAtController (faultAtLine s))) := by
  unfold exec execLineFault
  exact when_occurs _ s (by simp [hw, hdom, hfound])

/-- Settles O30, by the transmitter's state and the fault memory: reported alone, recovery, double fault. -/
theorem lineFaultReported : Obligations.LineFaultReported := by
  intro s hst hdom hfound
  have hw : s.suu.startUp.atWork = true := by simpa [atWork_eq] using hst
  have hexec := lineFault_occurs s hw hdom hfound
  refine ⟨fun hx => ⟨_, hexec, ?_⟩, fun hq hx hm => ⟨_, hexec, ?_⟩, fun f hq hx hm hf => ⟨_, hexec, ?_⟩,
    fun hq hx => ⟨_, hexec, ?_⟩, fun f hq hx hm hf => ⟨_, hexec, ?_⟩⟩
  · rw [fault_shut s ((shut_iff _).mpr hx)]
    exact ⟨rfl, lif_stepFrame s _ _⟩
  · have hnone : attempted s = none := attempted_none s hq (by rcases hx with hx | hx <;> rw [hx] <;> rfl)
    rw [fault_recovers s s _ (faultResolved_none s hnone) (by rcases hx with hx | hx <;> rw [hx] <;> rfl)
      (by rcases hx with hx | hx <;> rw [hx] <;> decide) hm]
    exact ⟨rfl, rfl, atLine_stepFrame s _ _ _⟩
  · rw [fault_recovers s _ _ (faultResolved_attempt f s hq hf) (by rcases hx with hx | hx | hx <;> rw [hx] <;> rfl)
      (by rcases hx with hx | hx | hx <;> rw [hx] <;> decide) hm]
    refine ⟨rfl, rfl, leavesAs_atLine .lineFault f s _ _ _ hq hf, fun hp hn => ?_⟩
    rw [endAttempt_plain .lineFault s f hq hp (by decide) fun _ => hn]
    exact ⟨rfl, atLine_stepFrame s _ _ _⟩
  · have hnone : attempted s = none :=
      attempted_none s hq (by rcases hx with hx | ⟨hx | hx, -⟩ <;> rw [hx] <;> rfl)
    rw [fault_halts s s _ (faultResolved_none s hnone) (by rcases hx with hx | ⟨hx | hx, -⟩ <;> rw [hx] <;> rfl)
      (hx.imp_right And.right)]
    exact ⟨by rw [refresh_lif, enterHalted_lif]; rfl, enterHalted_halts s s _ _ _ _ (.refl s)⟩
  · rw [fault_halts s _ _ (faultResolved_attempt f s hq hf) (by rcases hx with hx | hx | hx <;> rw [hx] <;> rfl)
      (.inr hm)]
    exact ⟨by rw [refresh_lif, enterHalted_lif]; rfl,
      enterHalted_halts s _ _ _ _ _ (endAttempt_sameBeside .lineFault f s hq hf)⟩

end Sys2Proof.Machine

namespace Sys2Proof.Machine

open Sys2Proof.Safety

/-! ### What the station drives (R16, R17, R27 to R31) -/

/-- At a station at work what is driven follows the transmitter: its own frame, its slots, another's frame (R16). -/
theorem driveOf_working (s : State) (hw : s.suu.startUp.atWork = true) :
    driveOf s =
      match s.lcu.tx with
      | .contending | .sending => sendDrive s
      | .slots => senderSlotDrive s
      | .idle | .waiting => receiverDrive s
      | .recovering | .halted | .muted => none := by
  unfold driveOf drivesSlots
  rw [hw]
  cases s.lcu.tx <;> rfl

/-- Nothing is driven before work and by a transmitter that does not work (R16, R45, R49, R50). -/
theorem driveOf_notWorking (s : State)
    (h : s.suu.startUp.atWork = false ∨ s.lcu.tx = .recovering ∨ s.lcu.tx = .halted ∨ s.lcu.tx = .muted) :
    driveOf s = none := by
  refine driveOf_silent s ?_
  unfold drivesSlots
  rcases h with h | h | h | h <;> simp [h, TxState.working]

/-- A sender drives its start mark into the first cell, then each cell from the edge that opens it (R17, R20). -/
theorem sendDrive_sent (s : State) (sent : Bool) (h : (sentBits s)[s.lif.cells.length]? = some sent) :
    sendDrive s =
      if s.lif.cells = [] then some (if sent then 18000 else 22000)
      else if s.lif.opened then some (if sent then 2000 else 6000)
      else none := by
  unfold sendDrive
  by_cases hc : s.lif.cells = []
  · rw [hc] at h
    rw [if_pos hc, if_pos hc, show (sentBits s)[0]? = some sent from h]
    cases sent <;> rfl
  · rw [if_neg hc, if_neg hc, h]
    cases sent <;> rfl

theorem senderSlotDrive_eq (s : State) :
    senderSlotDrive s =
      if s.lif.opened = false then none
      else if s.lif.ack = none ∨ s.lif.ack = some .zero then some 2000
      else some 6000 := by
  unfold senderSlotDrive
  cases s.lif.opened
  · rfl
  · by_cases h : s.lif.ack = none ∨ s.lif.ack = some .zero <;> simp [h, bitPulse, Config.oneNs, Config.zeroNs]

/-- A receiver drives for as long as a 0, or not at all (R29 to R31). -/
theorem receiverDrive_closed (s : State) (h : s.lif.opened = false ∨ s.lif.decode = .frame) : receiverDrive s = none := by
  unfold receiverDrive
  rcases h with h | h <;> simp [h]

theorem receiverDrive_hunt (s : State) (ho : s.lif.opened = true) (hd : s.lif.decode = .hunt) :
    receiverDrive s = if s.lif.run then some 6000 else none := by
  simp [receiverDrive, ho, hd, Config.zeroNs]

/-- In TAIL a receiver drives the ack slot of a clean frame, and the objection slot by what it read (R29, R31). -/
theorem receiverDrive_tail (s : State) (ho : s.lif.opened = true) (hd : s.lif.decode = .tail) :
    receiverDrive s =
      if (match s.lif.ack with
        | none => acks (receive s.lif.cells)
        | some a => objects a (receive s.lif.cells)) then some 6000
      else none := by
  cases ha : s.lif.ack <;> simp [receiverDrive, ho, hd, ha, Config.zeroNs]

/-! ### What the next row finds driven (R17, R21, R27, R30, R31) -/

/-- After a dominant edge a receiver drives by the pulse that the edge has opened. -/
theorem lineDominant_receiver (ns : Nat) (s : State) (hw : s.suu.startUp.atWork = true)
    (hx : s.lcu.tx = .idle ∨ s.lcu.tx = .waiting) (x : Lif) (he : edgeAt ns s = x) :
    driveOf (lineDominant ns s) = receiverDrive (s.withLif x) := by
  have hd := driveOf_working (lineDominant ns s) hw
  rw [← he]
  rcases hx with hx | hx <;> rw [hd, show (lineDominant ns s).lcu.tx = _ from hx] <;> rfl

/-- A fall keeps the cells read before it. -/
theorem fall_cells (x : Lif) (ns : Nat) (h : x.cells ≠ []) : (x.fall ns).cells ≠ [] := by
  unfold Lif.fall Lif.readPulse Lif.readFrameCell
  dsimp only
  (repeat' split) <;> simp [h]

/-- A line fault leaves a transmitter that does not work (R44, R49, R50). -/
theorem faultAtController_tx (s : State) :
    (faultAtController s).lcu.tx = .recovering ∨ (faultAtController s).lcu.tx = .halted ∨
      (faultAtController s).lcu.tx = .muted := by
  unfold faultAtController
  split
  · rename_i h
    exact .inr ((shut_iff _).mp h)
  · dsimp only
    split
    · exact .inr (.inl (by simp [doubleFault, enterHalted, stopTimers, enterTx]))
    · exact .inl rfl

/-- Settles O24: what is driven by transmitter and decode state, then what the rows that open or end a pulse leave driven. -/
theorem lineDriven : Obligations.LineDriven := by
  intro s
  have hwork : s.suu.startUp = .joining ∨ s.suu.startUp = .joined → s.suu.startUp.atWork = true := by
    simp [atWork_eq]
  dsimp only
  refine ⟨fun h => ?_, fun sent h hx hb => ?_, fun h hx => ?_, fun h hx => ?_, fun ns h hx hdom => ?_,
    fun ns h hx hdom hd ha h1 h2 => ?_, fun ns hdom hc => ?_, fun h hdom hfound => ?_, fun hq hx cell hc hb => ?_⟩
  · exact driveOf_notWorking s (h.imp_left fun hn => by simpa [atWork_eq] using hn)
  · rw [driveOf_working s (hwork h), ← sendDrive_sent s sent hb]
    rcases hx with hx | hx <;> rw [hx]
  · rw [driveOf_working s (hwork h), hx, ← senderSlotDrive_eq]
  · have hdrive : driveOf s = receiverDrive s := by
      rw [driveOf_working s (hwork h)]
      rcases hx with hx | hx <;> rw [hx]
    rw [hdrive]
    refine ⟨receiverDrive_closed s, receiverDrive_hunt s, fun ho hd => ?_⟩
    rw [receiverDrive_tail s ho hd]
    refine ⟨fun f hr => ?_, fun e k hr => ?_, fun hr => ?_⟩ <;> cases ha : s.lif.ack <;> simp [hr, acks, objects]
  · have hexec : exec (.lineLevelChange (.toDominant ns)) s = .next (refresh (lineDominant ns s)) :=
      when_occurs (lineDominant ns) s (by simp [hdom])
    have hplain : edgeAt ns s = s.lif.edge ns :=
      edgeAt_plain ns s (.inl (by rcases hx with hx | hx <;> rw [hx] <;> decide))
    have hopens : s.lif.decode = .tail → 7000 < s.lif.since + ns → s.lif.since + ns ≤ 9000 →
        edgeAt ns s = { s.lif with since := 0, opened := true } := by
      intro hd h1 h2
      rw [hplain, edge_inside _ _ (by rw [hd]; decide), edgeInFrame_opens _ _ h1 h2]
    refine ⟨fun hd => ⟨_, hexec, ?_⟩, fun f hd ha hr h1 h2 => ⟨_, hexec, ?_⟩,
      fun e k a hd ha hr h1 h2 => ⟨_, hexec, ?_⟩⟩
    · rw [refresh_ltx, lineDominant_receiver ns s (hwork h) hx _ (hplain.trans (edge_hunt _ _ hd))]
      cases hrun : s.lif.run
      · exact receiverDrive_closed _ (.inl rfl)
      · exact receiverDrive_hunt (s.withLif { s.lif with run := true, opened := true }) rfl hd
    · rw [refresh_ltx, lineDominant_receiver ns s (hwork h) hx _ (hopens hd h1 h2)]
      refine (receiverDrive_tail (s.withLif { s.lif with since := 0, opened := true }) rfl hd).trans ?_
      simp [ha, hr, acks]
    · rw [refresh_ltx, lineDominant_receiver ns s (hwork h) hx _ (hopens hd h1 h2)]
      refine (receiverDrive_tail (s.withLif { s.lif with since := 0, opened := true }) rfl hd).trans ?_
      simp [ha, hr, objects]
  · have hedge : edgeAt ns s = { s.lif with ack := some .missing, since := 0, opened := true } := by
      rw [edgeAt_missed ns s hx hd ha (by omega), edgeInFrame_opens _ _ (by omega) (by omega)]
    have hlif : (lineDominant ns s).lif.ack = some .missing ∧ (lineDominant ns s).lif.opened = true := by
      unfold lineDominant
      rw [hedge]
      exact ⟨rfl, rfl⟩
    refine ⟨_, when_occurs (lineDominant ns) s (by simp [hdom]), hlif.1, ?_⟩
    rw [refresh_ltx, driveOf_working (lineDominant ns s) (hwork h), show (lineDominant ns s).lcu.tx = .slots from hx]
    simp [senderSlotDrive_eq, hlif]
  · refine ⟨_, when_occurs (lineRecessive ns) s hdom, ?_⟩
    exact driveOf_between (lineRecessive ns s) (fall_frame s.lif ns).1 (fall_cells s.lif ns hc)
  · refine ⟨_, lineFault_occurs s (hwork h) hdom hfound, ?_⟩
    exact driveOf_notWorking _ (.inr (faultAtController_tx (faultAtLine s)))
  · obtain ⟨f, hf⟩ := attempted_exists s hq (by rw [hx]; rfl)
    refine ⟨_, when_occurs (loseArbitration cell) s (by simp [canLose, hx, hb, contentionCells, hc]), ?_⟩
    rw [refresh_ltx, loseArbitration_eq cell f s hq hf hc hb]
    exact driveOf_between _ rfl (by simp)

end Sys2Proof.Machine

namespace Sys2Proof.Machine

open Sys2Proof.Safety

/-! ### The ends of recovery (R41, R45 to R47, R53) -/

/-- The frame of a step that changes the line controller alone. -/
theorem lcu_stepFrame (s : State) (l : Lcu) : StepFrame [.lcu] 0 s (refresh (s.withLcu l)) :=
  stepFrame_of _ 0 s _ (fun b hb h1 h2 => by cases b <;> simp_all [Block.same]) (fun _ => rfl) (fun _ => rfl) (by simp) rfl

/-- A line controller with frames queued offers the first on what else the state holds (R40). -/
theorem offer_withLcu (s : State) (l : Lcu) (h : l.queue ≠ []) : offer (s.withLcu l) = s.withLcu (lcuOffers s l) := by
  rw [offer_eq (s.withLcu l) h, offered_congr s (s.withLcu l) fun _ => rfl]
  rfl

/-- The line controller's timers once recovery has ended: the fault memory alone runs (R45, R46). -/
def lcuRemembers (x : Lcu) : Lcu :=
  { x with recoveryDeadline := .off, recoveryQuiet := .off, faultMemory := .running 1000000 }

/-- Recovery ended with nothing queued: IDLE (R41, R45). -/
theorem leaveRecovering_empty (s : State) (h : s.lcu.queue = []) :
    leaveRecovering s =
      s.withLcu { lcuRemembers s.lcu with tx := .idle, history := entered [.idle] s.lcu.history } := by
  have hsettled : (settleTx (s.withLcu (lcuRemembers s.lcu))).lcu =
      { lcuRemembers s.lcu with tx := .idle, history := entered [.idle] s.lcu.history } := by
    rw [settleTx_lcu]
    simp [lcuRemembers, h]
  change (if (settleTx (s.withLcu (lcuRemembers s.lcu))).lcu.tx = .waiting then _ else
    s.withLcu (settleTx (s.withLcu (lcuRemembers s.lcu))).lcu) = _
  rw [hsettled, if_neg (by simp)]

/-- Recovery ended with frames queued: the first is offered at once (R40, R45). -/
theorem leaveRecovering_offers (s : State) (h : s.lcu.queue ≠ []) :
    leaveRecovering s =
      s.withLcu
        { lcuRemembers s.lcu with
          queue := offered s s.lcu.queue, tx := .contending
          history := entered [.waiting, .contending] s.lcu.history } := by
  have hsettled : (settleTx (s.withLcu (lcuRemembers s.lcu))).lcu =
      { lcuRemembers s.lcu with tx := .waiting, history := entered [.waiting] s.lcu.history } := by
    rw [settleTx_lcu]
    simp [lcuRemembers, h]
  change (if (settleTx (s.withLcu (lcuRemembers s.lcu))).lcu.tx = .waiting then
    offer (s.withLcu (settleTx (s.withLcu (lcuRemembers s.lcu))).lcu) else _) = _
  rw [hsettled, if_pos rfl, offer_withLcu s _ (by exact h)]
  rfl

/-- Recovery failed: the record, the STUCK record escalated, HALTED (R47, R53). -/
theorem recoveryFailed_halts (s : State) :
    Halts s
      (escalateNewest (appendRecord (faultRecord .recoveryTimeout none s) s.lcu.log).reverse).reverse 0 s
      (refresh (recoveryFailed s)) := by
  have hrecord : escalate (writeRecord .recoveryTimeout none s) =
      atLine s s.lif
        { s.lcu with
          tx := s.lcu.tx, history := s.lcu.history
          log := (escalateNewest (appendRecord (faultRecord .recoveryTimeout none s) s.lcu.log).reverse).reverse } 0 := by
    rw [atLine_zero]
    rfl
  unfold recoveryFailed
  rw [hrecord]
  exact enterHalted_halts s s s.lif s.lcu.tx _ 0 (.refl s)

/-- Settles O31, row by row, RECOVERY_QUIET_END by the queue. -/
theorem recoveryEnds : Obligations.RecoveryEnds := by
  intro s
  refine ⟨fun hx hquiet => ?_, fun hx hdeadline => ?_, fun hmem => ?_⟩
  · have hexec : exec .recoveryQuietEnd s = .next (refresh (leaveRecovering s)) :=
      when_occurs leaveRecovering s (by simp [hx, hquiet])
    refine ⟨fun hempty => ⟨_, hexec, ?_⟩, fun hne => ⟨_, hexec, ?_⟩⟩
    · rw [leaveRecovering_empty s hempty]
      exact ⟨rfl, lcu_stepFrame s _⟩
    · rw [leaveRecovering_offers s hne]
      exact ⟨rfl, lcu_stepFrame s _⟩
  · have hhalts := recoveryFailed_halts s
    obtain ⟨hlcu, -⟩ := id hhalts
    exact ⟨_, when_occurs recoveryFailed s (by simp [hx, hdeadline]), by simp [recoveryFailed],
      by rw [hlcu]; exact ⟨rfl, rfl⟩, fun _ => hhalts⟩
  · have hexec : exec .faultMemoryExpiry s = .next (refresh (s.withLcu { s.lcu with faultMemory := .off })) := by
      unfold exec execFaultMemoryExpiry
      exact when_occurs _ s hmem
    exact ⟨_, hexec, rfl, lcu_stepFrame s _⟩

end Sys2Proof.Machine

namespace Sys2Proof.Machine

open Sys2Proof.Safety

/-! ### Event flags and fault log at the port (R54, R199 to R202) -/

theorem half_getLsbD (a b : Byte) (i : Nat) :
    (half a b).getLsbD i = if i < 8 then b.getLsbD i else a.getLsbD (i - 8) :=
  BitVec.getLsbD_append

/-- The two bytes of a flag set spell its fourteen flags, whatever their spare bits carry (R204; log 11). -/
theorem flagSetBytes_spell (flags : BitVec 14) (place n : Nat) :
    ∃ a b : Byte, flagSetBytes flags place n = [a, b] ∧ (half a b).truncate 14 = flags := by
  refine ⟨_, _, rfl, BitVec.eq_of_getLsbD_eq fun i hi => ?_⟩
  have hspare : ∀ j < 6, (0xC0 : Byte).getLsbD j = false := by decide
  rw [BitVec.truncate_eq_setWidth, BitVec.getLsbD_setWidth, half_getLsbD, decide_eq_true hi, Bool.true_and]
  split
  · rename_i hlow
    simp [BitVec.getLsbD_setWidth, hlow]
    omega
  · rename_i hlow
    have hj : i - 8 < 6 := by omega
    have hi8 : i - 8 < 8 := by omega
    have hback : 8 + (i - 8) = i := by omega
    have h16 : i < 16 := by omega
    simp only [withSpare, BitVec.getLsbD_or, BitVec.getLsbD_and, BitVec.getLsbD_not, BitVec.getLsbD_extractLsb',
      BitVec.getLsbD_setWidth, BitVec.zeroExtend, hi8, hback, h16]
    rw [hspare _ hj]
    simp

/-- The event that each flag is of (R200). -/
theorem event_of_bit : ∀ i < 14, ∃ e : Event, e.bit = i := by
  intro i hi
  interval_cases i
  exacts [⟨.roundOpened, rfl⟩, ⟨.turnGranted, rfl⟩, ⟨.turnEnded, rfl⟩, ⟨.roundEnded, rfl⟩, ⟨.scoreChanged, rfl⟩,
    ⟨.diverged, rfl⟩, ⟨.txDropped, rfl⟩, ⟨.lineFault, rfl⟩, ⟨.halted, rfl⟩, ⟨.duplicate, rfl⟩, ⟨.rollDone, rfl⟩,
    ⟨.storeDone, rfl⟩, ⟨.verdictSuperseded, rfl⟩, ⟨.presenceChanged, rfl⟩]

/-- IRQ_N is high while no event is both set and enabled (R202). -/
theorem irqLevel_iff (flags mask : BitVec 14) :
    irqLevel flags mask = true ↔ ∀ e : Event, ¬(flags.getLsbD e.bit = true ∧ mask.getLsbD e.bit = true) := by
  unfold irqLevel
  rw [beq_iff_eq]
  refine ⟨fun h e => ?_, fun h => BitVec.eq_of_getLsbD_eq fun i hi => ?_⟩
  · rw [← Bool.and_eq_true, ← BitVec.getLsbD_and, h]
    simp
  · obtain ⟨e, rfl⟩ := event_of_bit i hi
    simpa using h e

/-! #### The four commands in a transfer -/

theorem clearFaults_next (s : State) (hs : s.cmp.transfer = .shifting) :
    exec .clearFaults s =
      .next (refresh (answer 0x08 .ok [byteOf s.lcu.log.length] (s.withLcu { s.lcu with log := [] }))) := by
  unfold exec execClearFaults
  exact command_shifting _ s hs

theorem readEvents_next (s : State) (hs : s.cmp.transfer = .shifting) :
    exec .readEvents s =
      .next (refresh
        (answer 0x09 .ok (flagSetBytes s.cmp.flags 5 s.free ++ flagSetBytes s.cmp.mask 7 s.free) s)) := by
  unfold exec execReadEvents
  exact command_shifting _ s hs

theorem clearEvents_next (named : Half) (s : State) (hs : s.cmp.transfer = .shifting) :
    exec (.clearEvents named) s =
      .next (refresh
        (answer 0x0A .ok
          (flagSetBytes s.cmp.flags 5 s.free ++ flagSetBytes (clearedFlags s.cmp.flags (namedFlags named)) 7 s.free)
          (s.withCmp { s.cmp with flags := clearedFlags s.cmp.flags (namedFlags named) }))) := by
  unfold exec execClearEvents
  exact command_shifting _ s hs

theorem setEventMask_next (named : Half) (s : State) (hs : s.cmp.transfer = .shifting) :
    exec (.setEventMask named) s =
      .next (refresh
        (answer 0x0B .ok (flagSetBytes (namedFlags named) 5 s.free)
          (s.withCmp { s.cmp with mask := namedFlags named }))) := by
  unfold exec execSetEventMask
  exact command_shifting _ s hs

/-- A part other than the port that is unchanged since the port was written is unchanged since before. -/
theorem same_withCmp (b : Block) (s t : State) (c : Cmp) (hb : b ≠ .cmp) (h : b.same (s.withCmp c) t) : b.same s t := by
  cases b with
  | cmp => exact absurd rfl hb
  | _ => exact h

/-- Settles O58, command by command; the flag bytes by `flagSetBytes_spell`. -/
theorem eventsAndFaultLog : Obligations.EventsAndFaultLog := by
  intro s hs
  refine ⟨⟨_, clearFaults_next s hs, ?_⟩, ?_, fun named => ?_, fun named => ?_⟩
  · exact ⟨answer_replied _ _ _ s _ rfl, rfl,
      answer_stepFrame _ _ _ _ s _ (by simp) (by simp) (fun b hb h1 h2 => by cases b <;> simp_all [Block.same]) rfl rfl rfl⟩
  · obtain ⟨a, b, hflags, hab⟩ := flagSetBytes_spell s.cmp.flags 5 s.free
    obtain ⟨c, d, hmask, hcd⟩ := flagSetBytes_spell s.cmp.mask 7 s.free
    refine ⟨_, a, b, c, d, readEvents_next s hs, ?_, hab, hcd⟩
    rw [hflags, hmask]
    exact answer_onlyReplied _ _ _ s
  · obtain ⟨a, b, hflags, hab⟩ := flagSetBytes_spell s.cmp.flags 5 s.free
    obtain ⟨c, d, hleft, hcd⟩ := flagSetBytes_spell (clearedFlags s.cmp.flags (namedFlags named)) 7 s.free
    refine ⟨_, a, b, c, d, clearEvents_next named s hs, ?_, hab, ?_, ?_, fun x hx => ?_, ?_, refresh_outputs _⟩
    · rw [hflags, hleft]
      exact ⟨rfl, rfl, rfl, rfl, rfl, rfl⟩
    · exact hcd
    · rfl
    · exact same_withCmp x s _ _ (by rintro rfl; simp at hx) ((answer_onlyReplied _ _ _ _).2.others x hx)
    · simp
  · obtain ⟨a, b, hmask, hab⟩ := flagSetBytes_spell (namedFlags named) 5 s.free
    refine ⟨_, a, b, setEventMask_next named s hs, rfl, hab, rfl, rfl, ?_, irqLevel_iff _ _, ?_⟩
    · rw [hmask]
      have hlength : bytes2 (BitVec.ofNat 16 7) = [0x00, 0x07] := by decide
      change bytes2 (BitVec.ofNat 16 7) ++ [0x0B, ReplyCode.ok.code, s.cmp.count + 1] ++ [a, b] = _
      rw [hlength]
      rfl
    · exact stepFrame_of _ _ s _ (fun b hb h1 h2 => by cases b <;> simp_all [Block.same]) (fun _ => rfl)
        (fun hn => absurd (by simp) hn) BitVec.or_zero.symm rfl

end Sys2Proof.Machine

namespace Sys2Proof.Machine

open Sys2Proof.Safety

/-! ### Input edges, releases and the end of the hold (R59 to R61, R67, R68) -/

/-- One input set, the outputs brought up to date: it alone has changed. -/
theorem setInput_step (d : DeskInput) (i : Input) (s : State) :
    let t := refresh (setInput d i s)
    t.icu.hold = s.icu.hold ∧ t.icu.input d = i ∧ (∀ e, e ≠ d → t.icu.input e = s.icu.input e) ∧
      t.icu.record = s.icu.record ∧ StepFrame [.icu] 0 s t := by
  obtain ⟨hset, hothers, hhold⟩ := setInput_input s.icu d i (s.icu.setInput d i).record
  refine ⟨hhold, hset, hothers, setInput_record _ _ _,
    stepFrame_of _ 0 s _ (fun b hb h1 h2 => ?_) (fun _ => rfl) (fun _ => rfl) BitVec.or_zero.symm rfl⟩
  cases b <;> simp_all [Block.same, setInput]

/-- So it is with an input that has been worked out otherwise. -/
theorem setInput_becomes (d : DeskInput) {i j : Input} (s : State) (h : i = j) :
    let t := refresh (setInput d i s)
    t.icu.input d = j ∧ (∀ e, e ≠ d → t.icu.input e = s.icu.input e) ∧ t.icu.record = s.icu.record ∧
      StepFrame [.icu] 0 s t :=
  h ▸ (setInput_step d i s).2

/-- BUZZ's hold over, its pass turn gone, or another input's release: what an accepted release leaves (R60, R67). -/
theorem acceptRelease_icu (d : DeskInput) (s : State) :
    (acceptRelease d s).icu =
      { s.icu.setInput d { s.icu.input d with filter := .released, timer := .off } with
        hold := if d = .buzz then .off else s.icu.hold
        record := if d = .buzz then { s.icu.record with passTurn := none } else s.icu.record } := by
  cases d <;> rfl

/-- The end of the hold passes when the pass turn is the own team's turn in progress (R67). -/
theorem passableTurn_eq (s : State) :
    passableTurn s =
      if (s.rng.phase = .turn ∨ s.rng.phase = .held) ∧ s.rng.answering = some s.suu.identity.team ∧
          s.icu.record.passTurn = some s.rng.turn then some s.rng.turn
      else none := by
  unfold passableTurn
  by_cases ho : ownTeamAnswers s = true
  · have ho' : (s.rng.phase = .turn ∨ s.rng.phase = .held) ∧ s.rng.answering = some s.suu.identity.team := by
      simpa [ownTeamAnswers] using ho
    rw [if_pos ho]
    cases hp : s.icu.record.passTurn with
    | none => simp
    | some x =>
      by_cases hx : x = s.rng.turn
      · simp [ho', hx]
      · simp [hx, Option.filter]
  · rw [if_neg ho, if_neg]
    rintro ⟨h1, h2, -⟩
    exact ho (by simp [ownTeamAnswers, h1, h2])

/-- The PASS of the own team's turn (R68). -/
abbrev passOf (turn : Nat) (s : State) : Content := .pass (byteOf turn) (byteOf s.suu.identity.team)

/-- A PASS handed over leaves the input capture unit alone. -/
theorem queuePass_icu (turn : Nat) (s : State) : (queuePass turn s).icu = s.icu := by
  unfold queuePass
  dsimp only
  split <;> simp

/-- The hold is over and the pass turn none, whether a PASS follows or not (R67). -/
theorem holdEnd_icu (s : State) : (holdEnd s).icu = (endHold s).icu := by
  unfold holdEnd
  cases passableTurn s with
  | none => rfl
  | some turn => exact queuePass_icu turn _

theorem queuePass_queued (turn : Nat) (s : State) (h : handAnswer (passOf turn s) s = .queued) :
    queuePass turn s = handOver (passOf turn s) .icu s := by
  unfold queuePass
  dsimp only
  rw [h]

theorem queuePass_already (turn : Nat) (s : State) (b : Bool) (h : handAnswer (passOf turn s) s = .already b) :
    queuePass turn s = s := by
  unfold queuePass
  dsimp only
  rw [h]

/-- A PASS dropped at once is reported to the panel (R36, R68). -/
theorem queuePass_dropped (turn : Nat) (s : State) (hx : s.lcu.tx.shut = true) :
    queuePass turn s = reportDrop (raise .txDropped s) := by
  obtain ⟨ha, hh⟩ := handOver_shut (passOf turn s) .icu s hx
  unfold queuePass
  dsimp only
  rw [ha]
  exact congrArg reportDrop hh

/-- The frame of a step that leaves input capture unit and line controller alone changed. -/
theorem icu_stepFrame (changed : List Block) (s : State) (i : Icu) (l : Lcu) (hi : .icu ∈ changed)
    (hl : .lcu ∉ changed → l = s.lcu) : StepFrame changed 0 s (refresh ((s.withIcu i).withLcu l)) := by
  refine stepFrame_of _ 0 s _ (fun b hb h1 h2 => ?_) (fun _ => rfl) (fun _ => rfl) BitVec.or_zero.symm rfl
  cases b <;> simp_all [Block.same]

/-- Settles O50: edges and releases by the filter's state, the end of the hold by the answer to its PASS. -/
theorem inputsAndHold : Obligations.InputsAndHold := by
  refine ⟨fun d s => ⟨fun hlow => ?_, fun hlow => ?_, fun x hf ht => ?_⟩, fun s hh => ?_⟩
  · refine ⟨_, when_occurs (fallInput d) s (by simp [hlow]), (setInput_step d _ s).1, fun hw => ?_, fun hw hf => ?_,
      fun x hw hf => ?_⟩
    · exact setInput_becomes d s (if_neg (by simpa [atWork_eq] using hw))
    · exact setInput_becomes d s ((if_pos (by simpa [atWork_eq] using hw)).trans (by simp [Input.fall, hf, filterTimer]))
    · exact setInput_becomes d s ((if_pos (by simpa [atWork_eq] using hw)).trans (by simp [Input.fall, hf]))
  · refine ⟨_, when_occurs (riseInput d) s hlow, (setInput_step d _ s).1, fun hw => ?_, fun c hw hf => ?_,
      fun x hw hf => ?_⟩
    · exact setInput_becomes d s (if_neg (by simpa [atWork_eq] using hw))
    · exact setInput_becomes d s ((if_pos (by simpa [atWork_eq] using hw)).trans (by simp [Input.rise, hf]))
    · exact setInput_becomes d s ((if_pos (by simpa [atWork_eq] using hw)).trans (by simp [Input.rise, hf, filterTimer]))
  · have hreleasing : (s.icu.input d).releasing = true := by simp [Input.releasing, hf, ht]
    have hstate : acceptRelease d s = (s.withIcu (acceptRelease d s).icu).withLcu s.lcu := by cases d <;> rfl
    have hframe : StepFrame [.icu] 0 s (refresh (acceptRelease d s)) := by
      rw [hstate]
      exact icu_stepFrame _ s _ _ (by simp) fun _ => rfl
    obtain ⟨hset, hothers, -⟩ := setInput_input s.icu d { s.icu.input d with filter := .released, timer := .off } s.icu.record
    refine ⟨_, when_occurs (acceptRelease d) s hreleasing, ?_, fun e he => ?_, ?_, ?_, hframe⟩
    · rw [refresh_icu, acceptRelease_icu]
      cases d <;> rfl
    · rw [refresh_icu, acceptRelease_icu, ← hothers e he]
      cases e <;> rfl
    · rw [refresh_icu, acceptRelease_icu]
    · rw [refresh_icu, acceptRelease_icu]
  · have hexec : exec .passHoldEnd s = .next (refresh (holdEnd s)) := when_occurs holdEnd s hh
    have hturn := passableTurn_eq s
    have halone : StepFrame [.icu] 0 s (refresh (endHold s)) :=
      icu_stepFrame _ s (endHold s).icu s.lcu (by simp) fun _ => rfl
    refine ⟨_, hexec, ?_, fun hn => ?_, fun hp hr hj h1 h2 => ?_, fun hp hx => ?_⟩
    · rw [refresh_icu, holdEnd_icu]
      rfl
    · rw [if_neg hn] at hturn
      rw [holdEnd, hturn]
      exact halone
    · rw [if_pos hp] at hturn
      rw [holdEnd, hturn]
      have hx : (endHold s).lcu.tx.shut = false := not_shut h1 h2
      have hwork : (endHold s).suu.startUp.atWork = true := (congrArg StartUp.atWork hj).trans rfl
      have hplace : (endHold s).suu.identity.role.hasPlace .pass = true := (congrArg (Role.hasPlace · .pass) hr).trans rfl
      refine ⟨fun hempty => ?_, fun hfull => ?_⟩
      · have ha := handAnswer_queued (passOf s.rng.turn (endHold s)) (endHold s) hx hwork hplace hempty
        obtain ⟨hq, l, heq⟩ := handOver_queued _ .icu _ ha
        dsimp only
        rw [queuePass_queued _ _ ha]
        rw [heq] at hq ⊢
        exact ⟨hq, icu_stepFrame _ s (endHold s).icu l (by simp) (by simp)⟩
      · obtain ⟨f, hf⟩ := Option.ne_none_iff_exists'.mp hfull
        have ha := (handAnswer_occupied (passOf s.rng.turn (endHold s)) (endHold s) f hx hwork hplace hf).trans
          (if_neg (by simp [Content.place]))
        dsimp only
        rw [queuePass_already _ _ _ ha]
        exact halone
    · rw [if_pos hp] at hturn
      have hshut : (endHold s).lcu.tx.shut = true := (shut_iff _).mpr hx
      rw [holdEnd, hturn]
      dsimp only
      rw [queuePass_dropped _ _ hshut]
      refine ⟨rfl, ?_, ?_⟩
      · rw [refresh_flash]
        rfl
      · simp [State.flagSet, reportDrop, raise, Event.flag, Event.bit]

end Sys2Proof.Machine

namespace Sys2Proof.Machine

open Sys2Proof.Safety

/-! ### A frame taken, as its owners find it (R31, R42, R188) -/

/-- Heard-marking as one record (R188). -/
theorem markHeard_eq (d r : Nat) (s : State) (h : TablesSound s) :
    markHeard d r s =
      { s with
        prs := { s.prs with entries := s.prs.entries.modify d fun e => { e with heard := true, lastRound := r } }
        cmp := { s.cmp with flags := s.cmp.flags ||| raisedIf (!(s.prs.entry d).heard) .presenceChanged } } := by
  obtain ⟨hscu, hprs, hcmp⟩ := markHeard_sound d r s h
  exact state_eq (by simp) (by simp) (by simp) (by simp) (by simp) (by simp) (by simp) (by simp) (by simp) hscu (by simp)
    hprs (by simp) hcmp (by simp) (by simp) (by simp)

/-- The state in which the owners of a taken frame are handed it: the line in HUNT, the station's own frame gone from the
queue, the sender heard. -/
def takenHeard (f : Frame) (s : State) : State :=
  { s with
    lif := hunted s.lif
    lcu := lcuTaken s
    prs := { s.prs with entries := heardEntries f s }
    cmp := { s.cmp with flags := s.cmp.flags ||| heardFlag f s } }

/-- A taking of a place that holds no pending content, no page and no HELLO. -/
structure PlainPlace (p : Place) : Prop where
  choice : p ≠ .choice
  hello : p ≠ .hello
  tally : ∀ n, p ≠ .tally n

theorem markHeard_taken (p : Place) (f : Frame) (s : State) (h : Takes p f s) (ht : TablesSound s) (hq : QueueSound s)
    (hp : PlainPlace p) : markHeard f.desk.toNat f.round.toNat (takenAtLine s) = takenHeard f s := by
  have hline := takenAtLine_eq p f s hq h hp.choice hp.tally
  rw [if_neg fun hn => hp.hello hn.1] at hline
  rw [markHeard_eq _ _ _ (by rw [hline]; exact ht), hline]
  rfl

/-- The taking of a frame that passes its sender check: its owners' effect on what line and presence leave. -/
theorem takes_taken (p : Place) (f : Frame) (eff : State → State) (s : State) (h : Takes p f s) (ht : TablesSound s)
    (hq : QueueSound s) (hp : PlainPlace p) (ha : senderAllowed f.desk.toNat f.body = true)
    (he : ∀ x, (eff x).suu.identity = x.suu.identity) :
    takes f eff s = .next (refresh (eff (takenHeard f s))) := by
  rw [takes_allowed p f eff s h ha he, markHeard_taken p f s h ht hq hp]

/-- What the owners find is sound, and no frame of its queue is in attempt (R32, R41). -/
theorem takenHeard_sound (p : Place) (f : Frame) (s : State) (h : Takes p f s) (ht : TablesSound s) (hq : QueueSound s)
    (hp : PlainPlace p) : QueueSound (takenHeard f s) ∧ Resting (takenHeard f s).lcu.queue := by
  have hs : QueueSound (takenHeard f s) := by
    rw [← markHeard_taken p f s h ht hq hp]
    exact ((takenAtLine_keptSound s).trans (markHeard_keptSound _ _ _)).queue hq
  exact ⟨hs, (taken_rests s _ f h.1 rfl hs).1⟩

/-- Such a taking changes nothing if its owners do nothing. -/
theorem takenHeard_stepFrame (f : Frame) (s : State) :
    StepFrame [.lif, .prs, .lcu] (heardFlag f s) s (refresh (takenHeard f s)) :=
  stepFrame_of _ _ s _ (fun b hb h1 h2 => by cases b <;> simp_all [Block.same, takenHeard]) (fun _ => rfl) (fun _ => rfl)
    rfl rfl

/-- What line and presence hold of a taking once its owners, who touch neither, have done their part. -/
theorem received_of (f : Frame) (s u : State) (hlif : u.lif = hunted s.lif)
    (hprs : u.prs = { s.prs with entries := heardEntries f s }) : Received f s (refresh u) := ⟨hlif, hprs⟩

/-! ### Steps that end with what a round's instant brings about (R84, R92, R95) -/

theorem roundSame_refresh (t : State) : RoundSame t (refresh t) := ⟨rfl, rfl, rfl, rfl, rfl⟩

/-- The entry to ENDED reads and writes the round's own blocks alone. -/
theorem roundEnds_congr {m n t u : State} (hm : RoundSame m n) (ht : RoundSame t u) (h : RoundEnds m t) : RoundEnds n u := by
  obtain ⟨m1, m2, m3, m4, m5⟩ := hm
  obtain ⟨t1, t2, t3, t4, t5⟩ := ht
  unfold RoundEnds WithdrawnOwn WithdrawnFrames at h ⊢
  rw [m1, m3, m4, m5, t1, t3, t4, t5]
  exact h

/-- So does what is due at an instant of the round. -/
theorem due_congr {m n : State} (hm : RoundSame m n) :
    closingDue n = closingDue m ∧ grantDue n = grantDue m ∧ settleOutDue n = settleOutDue m := by
  obtain ⟨m1, m2, m3, -, -⟩ := hm
  have hreached : deadlineReached n = deadlineReached m := by
    funext e
    unfold deadlineReached
    rw [m1, m3]
  unfold closingDue grantDue settleOutDue
  rw [m1, m2, m3, hreached]
  exact ⟨rfl, rfl, rfl⟩

theorem followFlags_congr {m n : State} (hm : RoundSame m n) : followFlags n = followFlags m := by
  obtain ⟨h1, h2, h3⟩ := due_congr hm
  unfold followFlags
  rw [h1, h2, h3]

theorem follows_congr {m n t u : State} (hm : RoundSame m n) (ht : RoundSame t u) (h : Follows m t) : Follows n u := by
  obtain ⟨h1, h2, h3⟩ := due_congr hm
  have hends : RoundEnds m t → RoundEnds n u := roundEnds_congr hm ht
  obtain ⟨m1, m2, m3, m4, m5⟩ := hm
  obtain ⟨t1, t2, t3, t4, t5⟩ := ht
  unfold Follows Granted RoundSame at h ⊢
  rw [h1, h2, h3, m1, m2, m3, m4, m5, t1, t2, t3, t4, t5]
  split
  · rwa [if_pos ‹_›] at h
  · rw [if_neg ‹_›] at h
    split
    · rwa [if_pos ‹_›] at h
    · rw [if_neg ‹_›] at h
      split
      · rw [if_pos ‹_›] at h
        exact ⟨hends h.1, h.2⟩
      · rwa [if_neg ‹_›] at h

section
variable (changed : List Block) (raised : BitVec 14) (s m : State)

/-- What a step leaves before the round's instant brings anything about: m, its queue in class order, changed from s in these
blocks, these flags raised. -/
structure Leads : Prop where
  sorted : (m.lcu.queue.map fun f => f.place.index).Pairwise (· < ·)
  waits : m.lcu.tx = .waiting → m.lcu.queue ≠ []
  blocks : ∀ b ∈ roundBlocks, b ∈ changed
  others : ∀ b, b ∉ changed → b ≠ .pnl → b ≠ .cmp → b.same s m
  pnl : m.pnl = s.pnl
  cmp : m.cmp = { s.cmp with flags := s.cmp.flags ||| raised }
  pending : m.pending = s.pending

variable {changed raised s m}

/-- The round's end, from what m holds (R95). -/
theorem Leads.ended (h : Leads changed raised s m) {n : State} (hn : RoundSame m n) :
    RoundEnds n (refresh (enterEnded m)) ∧ (refresh (enterEnded m)).clt = n.clt ∧
      StepFrame changed (raised ||| Event.roundEnded.flag) s (refresh (enterEnded m)) := by
  obtain ⟨k1, k2, k3, k4⟩ := enterEnded_keeps m h.sorted h.waits
  obtain ⟨hround, hclt, hcmp⟩ := enterEnded_spec m h.sorted h.waits
  refine ⟨roundEnds_congr hn (roundSame_refresh _) hround, ?_,
    stepFrame_refresh _ _ _ _ (fun b hb h1 h2 => ?_) (k3.trans h.pnl) ?_ ?_⟩
  · rw [refresh_clt, hclt, hn.2.1]
  · have h3 := h.others b hb h1 h2
    have h4 : b ∉ roundBlocks := fun hr => hb (h.blocks b hr)
    cases b <;> simp_all [Block.same]
  · rw [hcmp, h.cmp, BitVec.or_assoc]
  · rw [enterEnded_pending, h.pending]

/-- Whatever follows from m (R84, R92, R93). -/
theorem Leads.follows (h : Leads changed raised s m) {n : State} (hn : RoundSame m n) :
    Follows n (refresh (advance m)) ∧ StepFrame changed (raised ||| followFlags n) s (refresh (advance m)) := by
  refine ⟨follows_congr hn (roundSame_refresh _) (advance_spec m h.sorted h.waits).1, ?_⟩
  rw [followFlags_congr hn]
  exact stepFrame_advance changed raised s m h.sorted h.waits h.blocks h.others h.pnl h.cmp h.pending

end

end Sys2Proof.Machine

namespace Sys2Proof.Machine

open Sys2Proof.Safety

/-! ### CLOSE taken (R82, R83, R93) -/

theorem closable_iff (p : Phase) : p.closable = true ↔ p ≠ .unsynced ∧ p ≠ .ended := by cases p <;> simp [Phase.closable]

theorem closeEffect_prs (round : Byte) (point : Triple) (s : State) : (closeEffect round point s).prs = s.prs := by
  unfold closeEffect
  dsimp only
  (repeat' split) <;> simp

/-- A taken frame with another round context in its wake. -/
def takenWith (f : Frame) (s : State) (r : Rng) : State := (takenHeard f s).withRng r

theorem takenWith_leads (p : Place) (f : Frame) (s : State) (r : Rng) (h : Takes p f s) (ht : TablesSound s)
    (hq : QueueSound s) (hp : PlainPlace p) : Leads ([.lif, .prs] ++ roundBlocks) (heardFlag f s) s (takenWith f s r) := by
  obtain ⟨hsort, hwait⟩ := withdrawable _ (takenHeard_sound p f s h ht hq hp).1
  refine ⟨hsort, hwait, fun b hb => by simp_all, fun b hb h1 h2 => ?_, rfl, rfl, rfl⟩
  cases b <;> simp_all [Block.same, takenWith, takenHeard]

/-- The round context that a CLOSE of the current round leaves: the close point no later, closed (R82). -/
def closedRound (point : Nat) (r : Rng) : Rng := { r with closePoint := min r.closePoint point, closed := true }

/-- A CLOSE of the current round, in a phase that has one: the round's end, or what follows (R82, R83). -/
theorem closeEffect_applies (round : Byte) (point : Triple) (f : Frame) (s : State) (h : round.toNat = s.rng.round)
    (hphase : s.rng.phase ≠ .unsynced ∧ s.rng.phase ≠ .ended) :
    closeEffect round point (takenHeard f s) =
      if s.rng.phase = .reading ∨ point.toNat ≤ s.rng.armTicks then
        enterEnded (takenWith f s (closedRound point.toNat s.rng))
      else advance (takenWith f s (closedRound point.toNat s.rng)) :=
  if_pos ⟨h, (closable_iff _).mpr hphase⟩

/-- Settles O35: `closeEffect` does nothing, ends the round, or lets follow what closing brings about. -/
theorem closeTaken : Obligations.CloseTaken := by
  intro round point s h ht hq
  dsimp only
  have hp : PlainPlace .close := ⟨by simp, by simp, by simp⟩
  have hleads := takenWith_leads .close _ s (closedRound point.toNat s.rng) h ht hq hp
  refine ⟨_, takes_taken .close _ (closeEffect round point) s h ht hq hp rfl
    fun x => (closeEffect_keptSound round point x).identity, ?_, fun hn => ?_, fun ⟨hr, hph⟩ hends => ?_,
    fun ⟨hr, hph⟩ h1 h2 => ?_⟩
  · exact received_of _ s _ (closeEffect_keeps (p := .close) round point _).lif (closeEffect_prs round point _)
  · have hnothing : closeEffect round point (takenHeard ⟨0, round, .close point⟩ s) =
        takenHeard ⟨0, round, .close point⟩ s := if_neg (by rw [closable_iff]; exact hn)
    rw [hnothing]
    exact ⟨rfl, takenHeard_stepFrame _ s⟩
  · rw [closeEffect_applies round point _ s hr hph, if_pos hends]
    exact hleads.ended ⟨rfl, rfl, rfl, rfl, rfl⟩
  · rw [closeEffect_applies round point _ s hr hph, if_neg (not_or.mpr ⟨h1, Nat.not_le.mpr h2⟩)]
    exact hleads.follows ⟨rfl, rfl, rfl, rfl, rfl⟩

end Sys2Proof.Machine

namespace Sys2Proof.Machine

open Sys2Proof.Safety

/-! ### The scoreboard's changes (R142, R150, R156) -/

theorem raiseIf_eq (b : Bool) (e : Event) (s : State) :
    raiseIf b e s = s.withCmp { s.cmp with flags := s.cmp.flags ||| raisedIf b e } := by
  rw [← raiseIf_flags b e s]
  cases b <;> rfl

/-- A change of the scoreboard as one record: the ranks follow, SCORE_CHANGED tells of a figure that differs (R142). -/
theorem commitScores_eq (r : List TeamRec) (s : State) :
    commitScores r s =
      (s.withScu ⟨ranked r⟩).withCmp
        { s.cmp with
          flags := s.cmp.flags ||| raisedIf (r.map TeamRec.figures != s.scu.records.map TeamRec.figures) .scoreChanged } :=
  raiseIf_eq _ _ _

/-- Ranks that stand are the ranks worked out anew. -/
theorem ranked_sound (s : State) (h : ScoresSound s) : ranked s.scu.records = s.scu.records :=
  (List.map_congr_left fun x hx => by rw [← h.2.2.2 x hx]; rfl).trans (List.map_id _)

/-- A team of the scoreboard has its record (R155). -/
theorem team_place (s : State) (h : s.scu.records.length = 16) (t : Nat) (h1 : 1 ≤ t) (h2 : t ≤ 16) :
    ∃ hi : t - 1 < s.scu.records.length, s.scu.team t = s.scu.records[t - 1] := by
  have hi : t - 1 < s.scu.records.length := by omega
  exact ⟨hi, by simp [Scu.team, List.getD, List.getElem?_eq_getElem hi]⟩

theorem modifyTeam_eq (s : State) (h : s.scu.records.length = 16) (f : TeamRec → TeamRec) (t : Nat)
    (h1 : 1 ≤ t) (h2 : t ≤ 16) :
    modifyTeam t f s.scu.records = s.scu.records.set (t - 1) (f (s.scu.team t)) := by
  obtain ⟨hi, hx⟩ := team_place s h t h1 h2
  rw [hx]
  simp [modifyTeam, List.modify_eq_set_getElem?, List.getElem?_eq_getElem hi]

/-- One record's change differs exactly if its own figure does. -/
theorem map_set_bne {α : Type} [BEq α] [LawfulBEq α] (g : TeamRec → α) (s : State) (h : s.scu.records.length = 16)
    (y : TeamRec) (t : Nat) (h1 : 1 ≤ t) (h2 : t ≤ 16) :
    ((s.scu.records.set (t - 1) y).map g != s.scu.records.map g) = (g y != g (s.scu.team t)) := by
  obtain ⟨hi, hx⟩ := team_place s h t h1 h2
  rw [hx, List.map_set, Bool.eq_iff_iff, bne_iff_ne, bne_iff_ne, not_iff_not]
  constructor
  · intro he
    have hg := congrArg (fun l => l[t - 1]?) he
    simpa [hi] using hg
  · intro he
    rw [he, ← List.getElem_map g (h := by simpa using hi), List.set_getElem_self]

/-- The record that a check total leaves: at the console the one that stands (R150 to R152). -/
def checkedRecord (team : Nat) (c : Half) (s : State) : TeamRec :=
  if s.suu.identity.role = .console then s.scu.team team
  else { s.scu.team team with total := checkOf c, unconfirmed := false }

/-- A check total compared and adopted, as one record (R150 to R152). -/
theorem takeCheckTotal_eq (team : Nat) (c : Half) (s : State) (h : ScoresSound s) (h1 : 1 ≤ team) (h2 : team ≤ 16) :
    takeCheckTotal team c.toInt s =
      (s.withScu ⟨ranked (s.scu.records.set (team - 1) (checkedRecord team c s))⟩).withCmp
        { s.cmp with
          flags :=
            s.cmp.flags ||| (raisedIf ((checkedRecord team c s).total != (s.scu.team team).total) .scoreChanged |||
              raisedIf ((checkedRecord team c s).total != (s.scu.team team).total) .diverged) } := by
  unfold takeCheckTotal
  split
  case isTrue hr =>
    have hx : checkedRecord team c s = s.scu.team team := if_pos hr
    obtain ⟨hi, ht⟩ := team_place s h.1 team h1 h2
    rw [hx, ht, List.set_getElem_self, ranked_sound s h]
    simp [raisedIf, State.withScu, State.withCmp]
  case isFalse hr =>
    have hx : adoptRecord c.toInt (s.scu.team team) = checkedRecord team c s := by rw [checkedRecord, if_neg hr]; rfl
    have hfig : ((checkedRecord team c s).figures != (s.scu.team team).figures) =
        ((checkedRecord team c s).total != (s.scu.team team).total) := by
      rw [checkedRecord, if_neg hr, Bool.eq_iff_iff]
      simp [TeamRec.figures]
    have hsat : ((s.scu.team team).total != saturate c.toInt) =
        ((checkedRecord team c s).total != (s.scu.team team).total) := by
      rw [checkedRecord, if_neg hr]
      exact bne_comm
    rw [raiseIf_eq, hsat, modifyTeam_eq s h.1 _ team h1 h2, hx, commitScores_eq, map_set_bne _ s h.1 _ team h1 h2, hfig]
    simp [State.withScu, State.withCmp, BitVec.or_assoc]

end Sys2Proof.Machine

namespace Sys2Proof.Machine

open Sys2Proof.Safety

/-! ### VERDICT in the cases of R89 -/

theorem plainPlace_verdict : PlainPlace .verdict := ⟨by simp, by simp, by simp⟩

theorem isTeam_iff (n : Nat) : isTeam n = true ↔ 1 ≤ n ∧ n ≤ 16 := by simp [isTeam]

theorem outcomeOfCode_none (n : Nat) (h : n = 0 ∨ 5 < n) : outcomeOfCode n = none := by
  unfold outcomeOfCode
  split <;> simp_all

theorem verdictHandling_ignored (r : Rng) (round turn team code : Nat) (h : team = 0 ∨ 16 < team) :
    verdictHandling r round turn team code = .ignored :=
  if_pos (by simp [isTeam]; omega)

/-- The cases of R89: the check total alone. -/
theorem verdictHandling_checkOnly (r : Rng) (round turn team code : Nat) (h1 : 1 ≤ team) (h2 : team ≤ 16)
    (h : r.phase = .unsynced ∨ round ≠ r.round ∨ r.format = .choice ∨ r.phase = .reading ∨ turn = 0 ∨ 16 < turn ∨ code = 0 ∨
      5 < code ∨ turn < r.turn ∨ turn = r.turn ∧ r.answering = none) :
    verdictHandling r round turn team code = .checkOnly := by
  have ht : ¬isTeam team = false := by rw [(isTeam_iff team).mpr ⟨h1, h2⟩]; simp
  unfold verdictHandling
  rw [if_neg ht]
  split
  · rfl
  next hsync =>
    split
    · rfl
    next hformat =>
      split
      · rfl
      next hturn =>
        split
        · rfl
        next hpast =>
          have hcode : code = 0 ∨ 5 < code := by
            grind
          rw [outcomeOfCode_none code hcode]

/-- The console's own VERDICT taken clears its marker (R165). -/
theorem verdictAtConsole_eq (s x : State) (hs : s.suu.startUp.atWork = true) (hsuu : x.suu = s.suu) (hcnf : x.cnf = s.cnf) :
    verdictAtConsole (ownAttempt s) x = x.withCnf (cnfTaken s) := by
  have hown : (consoleStation x && ownAttempt s) = true ↔ s.suu.identity.role = .console ∧ s.lcu.tx = .slots := by
    simp [consoleStation, ownAttempt, hsuu, hs]
  unfold verdictAtConsole cnfTaken
  simp only [hown]
  split
  · simp [clearMarker, hcnf]
  · rw [← hcnf]
    rfl

/-- Settles O38: `verdictEffect` compares the check total, or nothing, before the console's marker. -/
theorem verdictLimited : Obligations.VerdictLimited := by
  intro round turn team outcome check s f h ht hq hsc x final
  have hw := canTake_work h.1
  have htaken := takes_taken .verdict f (verdictEffect (ownAttempt s) round turn team outcome check) s h ht hq
    plainPlace_verdict rfl fun u => (verdictEffect_keptSound _ round turn team outcome check u).identity
  refine ⟨fun hteam => ⟨_, htaken, ?_⟩, fun h1 h2 hless => ⟨_, htaken, ?_⟩⟩
  · have heff : verdictEffect (ownAttempt s) round turn team outcome check (takenHeard f s) =
        (takenHeard f s).withCnf (cnfTaken s) := by
      unfold verdictEffect
      rw [show (takenHeard f s).rng = s.rng from rfl, verdictHandling_ignored _ _ _ _ _ hteam]
      exact verdictAtConsole_eq s (takenHeard f s) hw rfl rfl
    rw [heff]
    refine ⟨received_of f s _ rfl rfl, rfl, rfl,
      stepFrame_of _ _ s _ (fun b hb h1 h2 => ?_) (fun _ => rfl) (fun _ => rfl) rfl rfl⟩
    cases b <;> simp_all [Block.same, takenHeard]
  · have heff : verdictEffect (ownAttempt s) round turn team outcome check (takenHeard f s) =
        (takeCheckTotal team.toNat check.toInt (takenHeard f s)).withCnf (cnfTaken s) := by
      unfold verdictEffect
      rw [show (takenHeard f s).rng = s.rng from rfl, verdictHandling_checkOnly _ _ _ _ _ h1 h2 hless]
      exact verdictAtConsole_eq s _ hw (by simp; rfl) (by simp; rfl)
    rw [heff, takeCheckTotal_eq team.toNat check (takenHeard f s) hsc h1 h2]
    have hfinal : checkedRecord team.toNat check (takenHeard f s) = final := rfl
    rw [hfinal]
    refine ⟨received_of f s _ rfl rfl, rfl, rfl, rfl,
      stepFrame_of _ _ s _ (fun b hb h1 h2 => ?_) (fun _ => rfl) (fun _ => rfl) ?_ rfl⟩
    · cases b <;> simp_all [Block.same, takenHeard]
    · show (s.cmp.flags ||| heardFlag f s) ||| (_ ||| _) = s.cmp.flags ||| ((heardFlag f s ||| _) ||| _)
      rw [BitVec.or_assoc, BitVec.or_assoc]
      rfl

end Sys2Proof.Machine

namespace Sys2Proof.Machine

open Sys2Proof.Safety

/-! ### A place withdrawn from a queue without an attempt (R37, R39) -/

theorem lcuWithout_absent (p : Place) (x : Lcu) (h : frameAt p x.queue = none) (hw : x.tx = .waiting → x.queue ≠ []) :
    lcuWithout p x = x := by
  have hq : x.queue.filter (fun f => f.place != p) = x.queue :=
    List.filter_eq_self.mpr fun f hf => bne_iff_ne.mpr (frameAt_none.mp h f hf)
  unfold lcuWithout
  dsimp only
  rw [hq, if_neg fun hn => hw hn.1 hn.2]

/-- A frame that waits leaves at once, and its owner is told. -/
theorem withdraw_waiting (p : Place) (m : State) (f : QFrame) (hp : p = .claim ∨ p = .verdict)
    (hf : frameAt p m.lcu.queue = some f) (hr : Resting m.lcu.queue) :
    withdraw p m = (told .withdrawn f m).withLcu (lcuWithout p m.lcu) := by
  have hi : f.inAttempt = false := hr f (frameAt_some hf).1
  have hplace : f.place = p := (frameAt_some hf).2
  have ht : told .withdrawn f (setQueue (removeAt p m.lcu.queue) m) =
      (told .withdrawn f m).withLcu { m.lcu with queue := m.lcu.queue.filter fun g => g.place != p } := by
    rcases hp with rfl | rfl <;> simp only [told, hplace] <;> rfl
  unfold withdraw lcuWithout
  simp only [hf, hi, ht, Bool.false_eq_true, if_false, State.withLcu_lcu, List.isEmpty_iff]
  split
  · simp [enterTx, entered, show (TxState.idle == TxState.recovering) = false from rfl, State.withLcu]
  · rfl

/-- The console's VERDICT withdrawn: its queue and transmitter alone change. -/
theorem withdraw_verdict (m : State) (hr : Resting m.lcu.queue) (hw : m.lcu.tx = .waiting → m.lcu.queue ≠ []) :
    withdraw .verdict m = m.withLcu (lcuWithout .verdict m.lcu) := by
  cases hf : frameAt .verdict m.lcu.queue with
  | none => rw [withdraw_absent _ _ hf, lcuWithout_absent _ _ hf hw]; rfl
  | some f =>
    rw [withdraw_waiting _ m f (.inr rfl) hf hr]
    simp only [told, (frameAt_some hf).2]

/-- The own CLAIM withdrawn: its record goes with its frame (R65). -/
theorem withdraw_claim (m : State) (hr : Resting m.lcu.queue) (h : holds .claim m = true) :
    withdraw .claim m =
      (m.withIcu { m.icu with record := { m.icu.record with ownClaim := .none, claimStamp := none } }).withLcu
        (lcuWithout .claim m.lcu) := by
  obtain ⟨f, hf⟩ := Option.isSome_iff_exists.mp h
  rw [withdraw_waiting _ m f (.inl rfl) hf hr]
  simp only [told, (frameAt_some hf).2]
  rfl

end Sys2Proof.Machine

namespace Sys2Proof.Machine

open Sys2Proof.Safety

/-! ### PASS taken, and a console's VERDICT for that turn (R91, R109, R167) -/

theorem plainPlace_pass : PlainPlace .pass := ⟨by simp, by simp, by simp⟩

/-- No frame of one's own to withdraw, as at a console (R35, R95). -/
def NoOwnFrames (s : State) : Prop := ∀ p, ownPlace p = true → frameAt p s.lcu.queue = none

theorem console_noOwnFrames (s : State) (hq : QueueSound s) (h : s.suu.identity.role = .console) : NoOwnFrames s := by
  intro p hp
  rw [frameAt_none]
  intro f hf hfp
  have hplace := (hq.2.1 f hf).1
  rw [h, hfp] at hplace
  cases p <;> simp_all [ownPlace, Role.hasPlace]

theorem NoOwnFrames.filtered {s : State} (h : NoOwnFrames s) (p : Place) (t : State) (ht : t.lcu = lcuWithout p s.lcu) :
    NoOwnFrames t := by
  have hq : t.lcu.queue = s.lcu.queue.filter fun f => f.place != p := by
    rw [ht]
    unfold lcuWithout
    dsimp only
    split <;> rfl
  intro r hr
  rw [frameAt_none, hq]
  exact fun f hf => frameAt_none.mp (h r hr) f (List.mem_filter.mp hf).1

/-- The round's end where there is nothing to withdraw. -/
def endedPlainly (s : State) : State :=
  raise .roundEnded
    ((s.withRng { s.rng with phase := .ended, answerRunning := false }).withRck { s.rck with running := false })

theorem withdrawOwn_absent (s : State) (h : NoOwnFrames s) : withdrawOwn s = s := by
  unfold withdrawOwn
  rw [withdraw_absent .claim s (h _ rfl), withdraw_absent .choice s (h _ rfl), withdraw_absent .pass s (h _ rfl)]

theorem enterEnded_noOwn (s : State) (h : NoOwnFrames s) : enterEnded s = endedPlainly s :=
  congrArg (raise .roundEnded) (withdrawOwn_absent _ h)

/-- Does a PASS of this turn supersede the console's VERDICT? -/
def supersedes (turn : Nat) (s : State) : Bool := s.suu.identity.role == .console && s.cnf.verdictPending == some turn

/-- A console that gives its VERDICT up. -/
def superseded (m : State) : State :=
  ((m.withLcu (lcuWithout .verdict m.lcu)).withCnf { m.cnf with verdictPending := none }).withCmp
    { m.cmp with flags := m.cmp.flags ||| Event.verdictSuperseded.flag }

/-- The supersession on a queue without an attempt: the VERDICT, the marker and the event. -/
theorem supersede_eq (turn : Nat) (m : State) (hwork : m.suu.startUp.atWork = true) (hr : Resting m.lcu.queue)
    (hw : m.lcu.tx = .waiting → m.lcu.queue ≠ []) :
    supersede turn m = if supersedes turn m then superseded m else m := by
  have hcond : (consoleStation m = true ∧ m.cnf.verdictPending = some turn) ↔ supersedes turn m = true := by
    simp [consoleStation, supersedes, hwork]
  unfold supersede
  simp only [hcond, withdraw_verdict m hr hw]
  rfl

/-- The turn's end leaves the round's instant to what follows; a supersession beside it may come first. -/
theorem supersede_enterEnded (turn : Nat) (m : State) (hq : QueueSound m) (hwork : m.suu.startUp.atWork = true)
    (hr : Resting m.lcu.queue) : supersede turn (enterEnded m) = enterEnded (supersede turn m) := by
  have hw := (withdrawable m hq).2
  by_cases h : supersedes turn m = true
  · have hnone := console_noOwnFrames m hq (by simp [supersedes] at h; exact h.1)
    have hended : supersede turn (endedPlainly m) = superseded (endedPlainly m) :=
      (supersede_eq turn (endedPlainly m) hwork hr hw).trans (if_pos h)
    rw [enterEnded_noOwn m hnone, hended, supersede_eq turn m hwork hr hw, if_pos h,
      enterEnded_noOwn (superseded m) (hnone.filtered .verdict _ rfl)]
    simp only [superseded, endedPlainly, raise, State.withRng, State.withRck, State.withLcu, State.withCnf, State.withCmp,
      BitVec.or_assoc, BitVec.or_comm Event.roundEnded.flag]
  · have hcond : ∀ t : State, t.suu = m.suu → t.cnf = m.cnf → supersede turn t = t := by
      intro t ht1 ht2
      refine if_neg fun hn => h ?_
      rw [consoleStation, ht1, ht2] at hn
      simp_all [supersedes]
    obtain ⟨hsuu, hcnf, -⟩ := enterEnded_keeps m hq.1 hw
    rw [hcond m rfl rfl, hcond (enterEnded m) hsuu hcnf]

/-- In ENDED nothing more follows (R95). -/
theorem advance_ended (s : State) (h : s.rng.phase = .ended) : advance s = s := by
  simp [advance, closingDue, grantDue, settleOutDue, h]

theorem passEnds_iff (r : Rng) (round turn team : Nat) :
    passEnds r round turn team = true ↔
      round = r.round ∧ (r.phase = .turn ∨ r.phase = .held) ∧ turn = r.turn ∧ r.answering = some team := by
  simp [passEnds, and_assoc]

/-- The turn's entry closed as PASS, its clock gone; short of the sixteenth turn the round is LIVE again (R91). -/
def turnPassed (team : Nat) (m : State) : State :=
  ((m.withClt ⟨m.clt.entries.map fun e => if e.team = team then closedEntry .pass e else e⟩).withRng
    { m.rng with
      answering := none, answerClock := 0, answerRunning := false
      phase := if 16 ≤ m.rng.turn then m.rng.phase else .live }).withCmp
    { m.cmp with flags := m.cmp.flags ||| Event.turnEnded.flag }

theorem endTurnByPass_eq (team : Nat) (m : State) (h : m.rng.phase ≠ .ended) :
    endTurnByPass team m = if 16 ≤ m.rng.turn then enterEnded (turnPassed team m) else turnPassed team m := by
  have hturn : endsRound .pass (closeTurn team .pass m).rng.turn = true ↔ 16 ≤ m.rng.turn := decide_eq_true_iff
  unfold endTurnByPass phaseAfterTurn turnPassed
  rw [if_neg (show (closeTurn team .pass m).rng.phase ≠ .ended from h)]
  simp only [hturn]
  split <;> rfl

/-- A PASS of the turn in progress: the turn ends, a pending VERDICT for it is given up, and the round ends or what follows
follows. -/
theorem passEffect_ends (round turn team : Byte) (m : State) (hq : QueueSound m) (hwork : m.suu.startUp.atWork = true)
    (hr : Resting m.lcu.queue) (h : passEnds m.rng round.toNat turn.toNat team.toNat = true) :
    passEffect round turn team m =
      if 16 ≤ m.rng.turn then enterEnded (supersede turn.toNat (turnPassed team.toNat m))
      else advance (supersede turn.toNat (turnPassed team.toNat m)) := by
  have hphase : m.rng.phase ≠ .ended := by
    rcases ((passEnds_iff _ _ _ _).mp h).2.1 with hp | hp <;> rw [hp] <;> decide
  rw [passEffect, if_pos h, endTurnByPass_eq _ _ hphase]
  split
  · have hc : QueueSound (turnPassed team.toNat m) := hq
    rw [supersede_enterEnded _ _ hc hwork hr]
    have hs := withdrawable _ ((supersede_keptSound turn.toNat _).queue hc)
    exact advance_ended _ (congrArg Rng.phase (enterEnded_spec _ hs.1 hs.2).1.1)
  · rfl

/-- What the turn's end and the supersession beside it leave, block by block. -/
def passLeft (turn team : Nat) (m : State) : State :=
  ((((m.withLcu (if supersedes turn m then lcuWithout .verdict m.lcu else m.lcu)).withClt (turnPassed team m).clt).withRng
    (turnPassed team m).rng).withCnf
      (if supersedes turn m then { m.cnf with verdictPending := none } else m.cnf)).withCmp
    { m.cmp with
      flags := m.cmp.flags ||| Event.turnEnded.flag ||| raisedIf (supersedes turn m) .verdictSuperseded }

theorem supersede_turnPassed (turn team : Nat) (m : State) (hwork : m.suu.startUp.atWork = true)
    (hr : Resting m.lcu.queue) (hw : m.lcu.tx = .waiting → m.lcu.queue ≠ []) :
    supersede turn (turnPassed team m) = passLeft turn team m := by
  have hsame : supersedes turn (turnPassed team m) = supersedes turn m := rfl
  rw [supersede_eq turn (turnPassed team m) hwork hr hw, hsame]
  unfold passLeft
  cases supersedes turn m
  · simp [turnPassed, raisedIf, State.withLcu, State.withClt, State.withRng, State.withCnf, State.withCmp]
  · rfl

theorem passEffect_prs (round turn team : Byte) (s : State) : (passEffect round turn team s).prs = s.prs := by
  unfold passEffect supersede
  (repeat' split) <;> simp

/-- Settles O39: the turn's end, the supersession beside it, and what the round's instant brings about. -/
theorem passTaken : Obligations.PassTaken := by
  intro desk round turn team s f h hd1 hd2 ht hq passes sup m flags
  have hallowed : senderAllowed f.desk.toNat f.body = true := by simp [senderAllowed, f, hd1, hd2]
  have htaken := takes_taken .pass f (passEffect round turn team) s h ht hq plainPlace_pass hallowed
    fun u => (passEffect_keptSound round turn team u).identity
  obtain ⟨hsound, hrest⟩ := takenHeard_sound .pass f s h ht hq plainPlace_pass
  have hw := (withdrawable _ hsound).2
  have hwork : s.suu.startUp.atWork = true := canTake_work h.1
  have hends := passEffect_ends round turn team (takenHeard f s) hsound hwork hrest
  have hpasses : passes ↔ passEnds s.rng round.toNat turn.toNat team.toNat = true := (passEnds_iff _ _ _ _).symm
  have hkept := supersede_keptSound turn.toNat (turnPassed team.toNat (takenHeard f s))
  rw [supersede_turnPassed turn.toNat team.toNat (takenHeard f s) hwork hrest hw] at hends hkept
  have hsame : RoundSame (passLeft turn.toNat team.toNat (takenHeard f s)) m := ⟨rfl, rfl, rfl, rfl, rfl⟩
  have hleads : Leads ([.lif, .prs, .cnf] ++ roundBlocks) flags s (passLeft turn.toNat team.toNat (takenHeard f s)) := by
    obtain ⟨hsorted, hwaits⟩ := withdrawable _ (hkept.queue hsound)
    refine ⟨hsorted, hwaits, fun b hb => by simp_all, fun b hb h1 h2 => ?_, rfl, ?_, rfl⟩
    · cases b <;> simp_all [Block.same, passLeft, takenHeard]
    · simp only [flags, ← BitVec.or_assoc]
      rfl
  refine ⟨_, htaken, ?_, fun hn => ?_, fun hp => ?_, fun hp h16 => ?_, fun hp h16 => ?_⟩
  · exact received_of f s _ (passEffect_keeps (p := .pass) round turn team _).lif (passEffect_prs round turn team _)
  · have hnothing : passEffect round turn team (takenHeard f s) = takenHeard f s := if_neg (mt hpasses.mpr hn)
    rw [hnothing]
    exact ⟨rfl, takenHeard_stepFrame f s⟩
  · rw [refresh_cnf, hends (hpasses.mp hp)]
    split
    · exact (enterEnded_keeps _ hleads.sorted hleads.waits).2.1
    · exact (advance_keeps _ hleads.sorted hleads.waits).2.1
  · rw [hends (hpasses.mp hp), if_pos (show 16 ≤ (takenHeard f s).rng.turn from h16)]
    exact hleads.ended hsame
  · rw [hends (hpasses.mp hp), if_neg (show ¬16 ≤ (takenHeard f s).rng.turn from Nat.not_le.mpr h16)]
    exact hleads.follows hsame

end Sys2Proof.Machine

namespace Sys2Proof.Machine

open Sys2Proof.Safety

/-! ### CLAIM taken (R65, R102 to R105) -/

theorem plainPlace_claim : PlainPlace .claim := ⟨by simp, by simp, by simp⟩

theorem stampInBounds_iff (r : Rng) (stamp : Nat) :
    stampInBounds r stamp = true ↔
      r.armTicks / r.grain ≤ stamp ∧ 1 ≤ r.closePoint ∧ stamp ≤ (r.closePoint - 1) / r.grain := by
  simp [stampInBounds, and_assoc]

theorem claimAccepted_iff (r : Rng) (round stamp team : Nat) :
    claimAccepted r round stamp team = true ↔
      round = r.round ∧ r.format = .buzz ∧ (r.phase = .live ∨ r.phase = .turn ∨ r.phase = .held) ∧
        r.armTicks / r.grain ≤ stamp ∧ 1 ≤ r.closePoint ∧ stamp ≤ (r.closePoint - 1) / r.grain ∧ 1 ≤ team ∧ team ≤ 16 := by
  have hphase : r.phase.claiming = true ↔ r.phase = .live ∨ r.phase = .turn ∨ r.phase = .held := by
    cases r.phase <;> simp [Phase.claiming]
  simp [claimAccepted, stampInBounds_iff, isTeam, hphase, and_assoc]

/-- The list after a CLAIM. -/
def claimedEntries (r : Rng) (desk round stamp team : Nat) (es : List Entry) : List Entry :=
  if claimAccepted r round stamp team then takeClaim r desk stamp team es else es

theorem claimAtList_eq (desk round stamp team : Nat) (s : State) :
    claimAtList desk round stamp team s = s.withClt ⟨claimedEntries s.rng desk round stamp team s.clt.entries⟩ := by
  unfold claimAtList claimedEntries
  split <;> rfl

/-- A new team's claim takes its place in the list; a team's own earlier claim takes its old one's place (R103, R104). -/
theorem takeClaim_new (r : Rng) (desk stamp team : Nat) (es : List Entry) (h : ∀ e ∈ es, e.team ≠ team) :
    takeClaim r desk stamp team es =
      placeWaiting { team := team, desk := desk, stamp := stamp, level := r.level team, status := .waiting, outcome := none,
                     late := false, adopted := false } es := by
  have hnone : entryOf team es = none := by
    unfold entryOf
    rw [List.find?_eq_none]
    exact fun e he => by simpa using h e he
  unfold takeClaim
  rw [hnone]

theorem takeClaim_held (r : Rng) (desk stamp team : Nat) (es : List Entry) (e : Entry)
    (h : es.find? (fun e => e.team == team) = some e) :
    takeClaim r desk stamp team es =
      if e.status = .waiting ∧ stamp < e.stamp then
        placeWaiting { e with stamp := stamp, desk := desk } (es.filter fun e => e.team != team)
      else es := by
  have hsome : entryOf team es = some e := h
  unfold takeClaim
  rw [hsome]
  rfl

/-- Does a teammate's claim take the own one's frame out of the queue (R65, R105)? -/
def givesClaimUp (desk round stamp team : Nat) (m : State) : Bool := overtaken desk round stamp team m && holds .claim m

/-- The own CLAIM's record after a claim taken (R65). -/
def claimRecordLeft (desk round stamp team : Nat) (m : State) : PressRecord :=
  if desk = m.suu.identity.desk then { m.icu.record with ownClaim := .taken, claimStamp := some stamp }
  else if givesClaimUp desk round stamp team m then { m.icu.record with ownClaim := .none, claimStamp := none }
  else m.icu.record

/-- The desk's part of a claim taken, as one record. -/
def claimLeft (desk round stamp team : Nat) (m : State) : State :=
  (m.withIcu { m.icu with record := claimRecordLeft desk round stamp team m }).withLcu
    (if givesClaimUp desk round stamp team m then lcuWithout .claim m.lcu else m.lcu)

theorem claimAtDesk_eq (desk round stamp team : Nat) (m : State) (hr : Resting m.lcu.queue) :
    claimAtDesk desk round stamp team m = claimLeft desk round stamp team m := by
  unfold claimAtDesk claimLeft claimRecordLeft givesClaimUp
  by_cases hd : desk = m.suu.identity.desk
  · have ho : overtaken desk round stamp team m = false := by simp [overtaken, hd]
    simp only [if_pos hd, ho]
    rfl
  · simp only [if_neg hd]
    cases ho : overtaken desk round stamp team m
    · rfl
    · cases hh : holds .claim m
      · exact withdraw_absent .claim m (by simpa [holds] using hh)
      · exact withdraw_claim m hr hh

theorem claimEffect_prs (desk : Desk) (round : Byte) (stamp : Triple) (team : Byte) (s : State) :
    (claimEffect desk round stamp team s).prs = s.prs := by
  unfold claimEffect claimAtDesk claimAtList
  (repeat' split) <;> simp

/-- Settles O40: the list takes or ignores the claim, the desk its own or its teammate's, and what is due follows. -/
theorem claimTaken : Obligations.ClaimTaken := by
  intro desk round stamp team s f h hd1 hd2 ht hq accepted others own givesUp record lcu
  have hallowed : senderAllowed f.desk.toNat f.body = true := by simp [senderAllowed, f, hd1, hd2]
  have htaken := takes_taken .claim f (claimEffect desk round stamp team) s h ht hq plainPlace_claim hallowed
    fun u => (claimEffect_keptSound desk round stamp team u).identity
  obtain ⟨hsound, hrest⟩ := takenHeard_sound .claim f s h ht hq plainPlace_claim
  have haccepted : accepted ↔ claimAccepted s.rng round.toNat stamp.toNat team.toNat = true :=
    (claimAccepted_iff _ _ _ _).symm
  let es := claimedEntries s.rng desk.toNat round.toNat stamp.toNat team.toNat s.clt.entries
  have hes : accepted → es = takeClaim s.rng desk.toNat stamp.toNat team.toNat s.clt.entries :=
    fun ha => if_pos (haccepted.mp ha)
  let listed := (takenHeard f s).withClt ⟨es⟩
  let m := claimLeft desk.toNat round.toNat stamp.toNat team.toNat listed
  have hm : claimAtDesk desk.toNat round.toNat stamp.toNat team.toNat listed = m := claimAtDesk_eq _ _ _ _ listed hrest
  have heff : claimEffect desk round stamp team (takenHeard f s) = advance m := by
    unfold claimEffect
    rw [claimAtList_eq, ← hm]
    rfl
  have hother : own = false → lcuTaken s = lcuIdle s := fun ho =>
    if_neg (h.2.elim (·.1) fun hn => absurd hn.1 (by simpa [own] using ho))
  have hgives : givesClaimUp desk.toNat round.toNat stamp.toNat team.toNat listed = givesUp := by
    cases ho : own
    · simp only [givesClaimUp, holds, listed, takenHeard, hother ho, givesUp]
      rfl
    · have hdesk : desk.toNat = s.suu.identity.desk := by simpa [own] using ho
      simp [givesClaimUp, overtaken, listed, takenHeard, givesUp, ho, hdesk]
  have hlcu : lcu = m.lcu := by
    show _ = if givesClaimUp desk.toNat round.toNat stamp.toNat team.toNat listed then lcuWithout .claim (lcuTaken s)
      else lcuTaken s
    rw [hgives]
    by_cases hg : givesUp = true
    · have ho : own = false := by
        cases ho : own
        · rfl
        · simp [givesUp, ho] at hg
      rw [if_pos hg, hother ho]
      exact if_pos hg
    · rw [if_neg hg]
      exact if_neg hg
  have hrecord : record = m.icu.record := by
    show _ = if desk.toNat = s.suu.identity.desk then _
      else if givesClaimUp desk.toNat round.toNat stamp.toNat team.toNat listed then _ else _
    rw [hgives]
    by_cases hd : desk.toNat = s.suu.identity.desk
    · rw [if_pos hd]
      exact if_pos (beq_iff_eq.mpr hd)
    · rw [if_neg hd]
      exact if_neg (mt beq_iff_eq.mp hd)
  have hsame : RoundSame m { s with lcu := lcu, clt := ⟨es⟩, icu := { s.icu with record := record } } :=
    ⟨rfl, rfl, rfl, hlcu, by rw [hrecord]; rfl⟩
  have hleads : Leads ([.lif, .prs] ++ roundBlocks) (heardFlag f s) s m := by
    have hkept := claimAtDesk_keptSound desk.toNat round.toNat stamp.toNat team.toNat listed
    rw [hm] at hkept
    obtain ⟨hsorted, hwaits⟩ := withdrawable _ (hkept.queue hsound)
    refine ⟨hsorted, hwaits, fun b hb => by simp_all, fun b hb h1 h2 => ?_, rfl, rfl, rfl⟩
    cases b <;> simp_all [Block.same, m, claimLeft, listed, takenHeard]
  refine ⟨_, es, htaken, ?_, fun hn => if_neg (mt haccepted.mpr hn), fun ha hnew => ?_, fun e ha he => ?_, ?_⟩
  · exact received_of f s _ (claimEffect_keeps (p := .claim) desk round stamp team _).lif
      (claimEffect_prs desk round stamp team _)
  · rw [hes ha, takeClaim_new _ _ _ _ _ hnew]
    rfl
  · rw [hes ha, takeClaim_held _ _ _ _ _ e he]
  · rw [heff]
    exact hleads.follows hsame

end Sys2Proof.Machine

namespace Sys2Proof.Machine

open Sys2Proof.Safety

/-! ### OPEN taken (R75 to R77, R80) -/

theorem plainPlace_open : PlainPlace .open_ := ⟨by simp, by simp, by simp⟩

/-- Two bits of a word are its value modulo 4 (R203). -/
theorem low_two_bits {w : Nat} (x : BitVec w) (h : 2 ≤ w) : (x &&& 3).toNat = x.toNat % 4 := by
  have h3 : (3 : BitVec w).toNat = 2 ^ 2 - 1 := by
    have hw : 2 ^ 2 ≤ 2 ^ w := Nat.pow_le_pow_right (by decide) h
    exact Nat.mod_eq_of_lt (Nat.lt_of_lt_of_le (by decide) hw)
  rw [BitVec.toNat_and, h3, Nat.and_two_pow_sub_one_eq_mod]

theorem blockGrainCode_eq (b : OpenBlock) : blockGrainCode b = b.flags.toNat % 4 := low_two_bits b.flags (by decide)

/-- The level of a team, as a digit to the base 4 (R203). -/
theorem blockLevel_eq (b : OpenBlock) (i : Nat) (h : i < 16) : blockLevel b (i + 1) = b.levels.toNat / 4 ^ (15 - i) % 4 := by
  have hpow : 2 ^ (32 - 2 * (i + 1)) = 4 ^ (15 - i) := by
    rw [show 32 - 2 * (i + 1) = 2 * (15 - i) by omega, pow_mul]
    rfl
  rw [blockLevel, low_two_bits _ (by decide), BitVec.toNat_ushiftRight, Nat.shiftRight_eq_div_pow, hpow]

theorem blockLevels_eq (b : OpenBlock) :
    blockLevels b = (List.range 16).map fun i => b.levels.toNat / 4 ^ (15 - i) % 4 :=
  List.map_congr_left fun i hi => blockLevel_eq b i (List.mem_range.mp hi)

/-- The arm of a round just opened: at once with no arm delay, and nothing else is due then (R80). -/
theorem reachArm_fresh (s : State) (hphase : s.rng.phase = .reading) (hsat : s.rng.saturated = false)
    (hclosed : s.rng.closed = false) (hlist : s.clt.entries = []) (hcount : s.rck.count = 0) :
    reachArm s = if s.rng.armTicks = 0 then setPhase .live s else s := by
  have hdue : armDue s = true ↔ s.rng.armTicks = 0 := by simp [armDue, hphase, hsat, hcount]
  have hrest : advance (setPhase .live s) = setPhase .live s := by
    simp [advance, closingDue, grantDue, settleOutDue, setPhase, hclosed, hlist, waitingHead, waitingPart]
  unfold reachArm
  simp only [hdue, hrest]

/-- What an OPEN leaves where its own frames have been withdrawn (R77). -/
def roundOpened (round : Byte) (b : OpenBlock) (t : State) : State :=
  (((((t.withRng { loadRound round b with phase := if b.armDelay.toNat * 1000 = 0 then .live else .reading }).withClt
    .reset).withCht .reset).withRck { count := 0, running := true }).withIcu t.icu.opened).withCmp
    { t.cmp with flags := t.cmp.flags ||| Event.roundOpened.flag }

theorem roundOpened_lcu (round : Byte) (b : OpenBlock) (t : State) : (roundOpened round b t).lcu = t.lcu := rfl

theorem openEffect_eq (round : Byte) (b : OpenBlock) (s : State) :
    openEffect round b s = roundOpened round b (withdrawOwn s) := by
  unfold openEffect roundOpened
  rw [reachArm_fresh _ rfl rfl rfl rfl rfl]
  split
  next h => rw [if_pos (show b.armDelay.toNat * 1000 = 0 from h)]; rfl
  next h => rw [if_neg (show ¬b.armDelay.toNat * 1000 = 0 from h)]; rfl

/-- The own frames withdrawn as the queue's part of it alone. -/
theorem withdrawnFrames_congr {m n t u : State} (hm : n.lcu = m.lcu) (ht : u.lcu = t.lcu) (h : WithdrawnFrames m t) :
    WithdrawnFrames n u := by
  unfold WithdrawnFrames at h ⊢
  rw [hm, ht]
  exact h

theorem opened_input (x : Icu) (d : DeskInput) : x.opened.input d = (x.input d).opened := by cases d <;> rfl

/-- Settles O34: the own frames withdrawn, the round loaded, and with no arm delay its arm. -/
theorem openTaken : Obligations.OpenTaken := by
  intro round b s h ht hq arm window
  have htaken := takes_taken .open_ _ (openEffect round b) s h ht hq plainPlace_open rfl
    fun u => (openEffect_keptSound round b u).identity
  have hsound := (takenHeard_sound .open_ _ s h ht hq plainPlace_open).1
  rw [openEffect_eq] at htaken
  obtain ⟨hsorted, hwaits⟩ := withdrawable _ hsound
  obtain ⟨⟨hframes, hicu⟩, l, i, hwrites⟩ := withdrawOwn_spec _ hsorted hwaits
  generalize withdrawOwn (takenHeard ⟨0, round, .open_ b⟩ s) = w at htaken hframes hicu hwrites
  refine ⟨_, htaken, ?_, ?_, rfl, rfl, rfl, rfl, ?_, fun d => ?_, ?_, ?_⟩
  · subst hwrites
    exact ⟨rfl, rfl⟩
  · rw [refresh_rng]
    simp only [roundOpened, loadRound, blockFormat, blockMode, blockNoneg, grainOfCode, blockGrainCode_eq, blockLevels_eq,
      blockWindow, clamp]
    rfl
  · show w.icu.hold = _
    rw [hicu]
    rfl
  · show w.icu.opened.input d = _
    have hinput : w.icu.input d = s.icu.input d := by
      rw [hicu]
      cases d <;> rfl
    rw [opened_input, hinput]
    rfl
  · refine withdrawnFrames_congr ?_ ?_ hframes
    · unfold takenHeard
      rfl
    · rw [refresh_lcu, roundOpened_lcu]
  · subst hwrites
    refine stepFrame_of _ _ s _ (fun b hb h1 h2 => ?_) (fun _ => rfl) (fun _ => rfl) (BitVec.or_assoc ..) rfl
    cases b <;> simp_all [Block.same, roundOpened, takenHeard]

end Sys2Proof.Machine

namespace Sys2Proof.Machine

open Sys2Proof.Safety

/-! ### CHOICE taken (R71, R122 to R126) -/

/-- The TAKEN of an own frame, of neither HELLO nor a page, changes queue and transmitter alone (R42). -/
theorem endAttempt_taken_writes (g : QFrame) (s : State) (hq : QueueSound s) (hg : attempted s = some g)
    (hhello : g.place ≠ .hello) (htally : ∀ n, g.place ≠ .tally n) :
    endAttempt .taken s = s.withLcu (endAttempt .taken s).lcu := by
  have hcnf : cnfAt .taken g s = s.cnf := by
    cases hpl : g.place <;> simp_all [cnfAt, dropsAt_taken]
  have hended : attemptEnded .taken g s = s.withLcu { s.lcu with queue := queueAt .taken g s } := by
    simp [attemptEnded, hcnf, recordAt, dropsAt_taken, raisedIf, hhello, State.withLcu]
  rw [endAttempt_eq .taken g s hq hg, hended]
  rfl

/-- What the TAKEN of a CHOICE leaves: a content that waits for the place becomes its frame (R37, R41, R42). -/
theorem takenAtLine_choice (f : Frame) (s : State) (hq : QueueSound s) (h : Takes .choice f s) :
    takenAtLine s =
      (s.withLif (hunted s.lif)).withLcu (lcuIdle (if s.lcu.tx = .slots then endAttempt .taken s else s)) := by
  rcases h.2 with ⟨hx, -⟩ | ⟨-, hx, g, hg, hgp⟩
  · rw [takenAtLine_receiver s hx, if_neg hx]
    rfl
  · have hg' : attempted s = some g := by simpa using hg
    have hown : takenAtLine s = endAttempt .taken (frameEnd s) := by simp [takenAtLine, ownAttempt, hx]
    rw [hown, if_pos hx, frameEnd, endAttempt_atLine .taken g s _ _ hq hg', atLine_zero,
      endAttempt_taken_writes g s hq hg' (by simp [hgp]) (by simp [hgp])]
    rfl

theorem choiceAccepted_iff (r : Rng) (round stamp key team : Nat) :
    choiceAccepted r round stamp key team = true ↔
      round = r.round ∧ r.format = .choice ∧ (r.phase = .live ∨ r.phase = .closing) ∧ r.armTicks / r.grain ≤ stamp ∧
        1 ≤ r.closePoint ∧ stamp ≤ (r.closePoint - 1) / r.grain ∧ 1 ≤ key ∧ key ≤ 4 ∧ 1 ≤ team ∧ team ≤ 16 := by
  simp [choiceAccepted, stampInBounds_iff, isTeam, and_assoc]

theorem choiceTakes_iff (mode : ChoiceMode) (c : ChoiceRec) (stamp key : Nat) :
    choiceTakes mode c stamp key = true ↔
      c.key = 0 ∨ mode = .first ∧ stamp < c.stamp ∨
        mode = .change ∧ (c.stamp < stamp ∨ stamp = c.stamp ∧ key ≠ c.key) := by
  cases mode <;> simp [choiceTakes]

/-- The table after a CHOICE: one record more recent, or as it was (R122 to R125). -/
def choiceTable (desk round stamp key team : Nat) (s : State) : Cht :=
  if (choiceAccepted s.rng round stamp key team && choiceTakes s.rng.mode (s.cht.team team) stamp key) = true then
    ⟨s.cht.records.set (team - 1)
      { key := key, stamp := stamp, desk := desk, changes := min 255 ((s.cht.team team).changes + 1) }⟩
  else s.cht

theorem choiceAtTable_eq (desk round stamp key team : Nat) (s : State) (hlen : s.cht.records.length = 16) :
    choiceAtTable desk round stamp key team s = s.withCht (choiceTable desk round stamp key team s) := by
  unfold choiceAtTable choiceTable
  cases ha : choiceAccepted s.rng round stamp key team with
  | false => rfl
  | true =>
    obtain ⟨-, -, -, -, -, -, -, -, h1, h2⟩ := (choiceAccepted_iff _ _ _ _ _).mp ha
    have hi : team - 1 < s.cht.records.length := by omega
    have hc : s.cht.team team = s.cht.records[team - 1] := by simp [Cht.team, List.getD, List.getElem?_eq_getElem hi]
    have hset : takeChoice s.rng.mode desk stamp key team s.cht =
        ⟨s.cht.records.set (team - 1) (takeChoiceRecord s.rng.mode desk stamp key (s.cht.team team))⟩ := by
      rw [hc]
      simp [takeChoice, List.modify_eq_set_getElem?, List.getElem?_eq_getElem hi]
    rw [hset, takeChoiceRecord]
    cases ht : choiceTakes s.rng.mode (s.cht.team team) stamp key with
    | true => rfl
    | false =>
      simp only [Bool.false_eq_true, if_false, Bool.and_false, if_true]
      rw [hc, List.set_getElem_self]

/-- The own desk notes the key, and forgets a pending one whose frame is gone (R71, R126). -/
def choiceRecord (desk key : Nat) (s : State) : PressRecord :=
  if desk = s.suu.identity.desk then
    { s.icu.record with lastKey := key, pendingKey := if holds .choice s then s.icu.record.pendingKey else 0 }
  else s.icu.record

theorem choiceAtDesk_eq (desk key : Nat) (s : State) :
    choiceAtDesk desk key s = s.withIcu { s.icu with record := choiceRecord desk key s } := by
  unfold choiceAtDesk choiceRecord holds
  split
  · cases frameAt .choice s.lcu.queue <;> rfl
  · rfl

/-- A CHOICE taken, as its owners find it. -/
def choiceHeard (f : Frame) (u s : State) : State := (takenHeard f s).withLcu (lcuIdle u)

/-- Settles O41: the record in the table, and the key at its own desk. -/
theorem choiceTaken : Obligations.ChoiceTaken := by
  intro desk round stamp key team s f h hd1 hd2 ht hq accepted c takes u
  have hallowed : senderAllowed f.desk.toNat f.body = true := by simp [senderAllowed, f, hd1, hd2]
  have htaken := takes_allowed .choice f (choiceEffect desk round stamp key team) s h hallowed
    fun u => (choiceEffect_keptSound desk round stamp key team u).identity
  have hheard : markHeard f.desk.toNat f.round.toNat (takenAtLine s) = choiceHeard f u s := by
    rw [takenAtLine_choice f s hq h]
    exact markHeard_eq _ _ ((s.withLif (hunted s.lif)).withLcu (lcuIdle u)) ht
  have hboth : (choiceAccepted s.rng round.toNat stamp.toNat key.toNat team.toNat &&
      choiceTakes s.rng.mode c stamp.toNat key.toNat) = true ↔ accepted ∧ takes := by
    rw [Bool.and_eq_true, choiceAccepted_iff, choiceTakes_iff]
  have heff : choiceEffect desk round stamp key team (choiceHeard f u s) =
      ((choiceHeard f u s).withCht (choiceTable desk.toNat round.toNat stamp.toNat key.toNat team.toNat s)).withIcu
        { s.icu with record := choiceRecord desk.toNat key.toNat (choiceHeard f u s) } := by
    unfold choiceEffect
    rw [choiceAtTable_eq _ _ _ _ _ (choiceHeard f u s) ht.1, choiceAtDesk_eq]
    rfl
  rw [hheard, heff] at htaken
  refine ⟨_, htaken, received_of f s _ rfl rfl, rfl, fun ha htk => ?_, fun hn => if_neg (mt hboth.mp hn), fun hdesk => ?_,
    fun hdesk => ?_, stepFrame_of _ _ s _ (fun b hb h1 h2 => ?_) (fun _ => rfl) (fun _ => rfl) rfl rfl⟩
  · exact congrArg Cht.records (if_pos (hboth.mpr ⟨ha, htk⟩))
  · exact congrArg (fun r => { s.icu with record := r }) (if_neg hdesk)
  · exact congrArg (fun r => { s.icu with record := r }) (if_pos hdesk)
  · cases b <;> simp_all [Block.same, choiceHeard, takenHeard]

end Sys2Proof.Machine

namespace Sys2Proof.Machine

open Sys2Proof.Safety

/-! ### TALLY taken (R142, R153, R173) -/

/-- Totals adopted one after the other from a place on: each team by its own (R153). -/
theorem adoptAll_getElem? (l : List Int) (k i : Nat) (records : List TeamRec) :
    ((l.zipIdx (k + 1)).foldl (fun rs ct => modifyTeam ct.2 (adoptRecord ct.1) rs) records)[i]? =
      records[i]?.map fun x => if k ≤ i ∧ i < k + l.length then adoptRecord (l.getD (i - k) 0) x else x := by
  induction l generalizing k records with
  | nil =>
    have hnone : ¬(k ≤ i ∧ i < k) := by omega
    cases hi : records[i]? <;> simp [hnone, hi]
  | cons c l ih =>
    rw [List.zipIdx_cons, List.foldl_cons, ih]
    simp only [modifyTeam, Nat.add_sub_cancel, List.getElem?_modify, List.length_cons]
    rcases Nat.lt_trichotomy i k with hi | rfl | hi
    · have h1 : ¬(k + 1 ≤ i ∧ i < k + 1 + l.length) := by omega
      have h2 : ¬(k ≤ i ∧ i < k + (l.length + 1)) := by omega
      simp only [h1, h2, if_false, Nat.ne_of_gt hi]
      cases records[i]? <;> rfl
    · have h1 : ¬(i + 1 ≤ i ∧ i < i + 1 + l.length) := by omega
      have h2 : i ≤ i ∧ i < i + (l.length + 1) := by omega
      simp only [h1, h2, if_false, if_true, Nat.sub_self, and_self]
      cases records[i]? <;> rfl
    · have h1 : (k + 1 ≤ i ∧ i < k + 1 + l.length) ↔ (k ≤ i ∧ i < k + (l.length + 1)) := by omega
      have h2 : (c :: l).getD (i - k) 0 = l.getD (i - (k + 1)) 0 := by
        rw [show i - k = i - (k + 1) + 1 by omega, List.getD_cons_succ]
      simp only [h1, h2, if_false, Nat.ne_of_lt hi]
      cases records[i]? <;> rfl

/-- The records after a page's four totals (R153). -/
theorem tallyRecords_eq (page : Nat) (totals : List Half) (hlen : totals.length = 4) (records : List TeamRec) :
    tallyRecords page (totals.map BitVec.toInt) records =
      records.mapIdx fun i x =>
        if 4 * page ≤ i ∧ i < 4 * page + 4 then
          { x with total := checkOf (totals.getD (i - 4 * page) 0), unconfirmed := false }
        else x := by
  refine List.ext_getElem? fun i => ?_
  rw [tallyRecords, adoptAll_getElem?, List.getElem?_mapIdx, List.length_map, hlen]
  have hget : ∀ n, (totals.map BitVec.toInt).getD n 0 = (totals.getD n 0).toInt := fun n =>
    List.getD_map _ (0 : Half) BitVec.toInt
  simp only [hget]
  rfl

/-- Where no count changes, a figure differs exactly if a total does (R142, R153). -/
theorem figures_bne (r x : List TeamRec)
    (h : (r.map fun y => (y.rights, y.wrongs)) = x.map fun y => (y.rights, y.wrongs)) :
    (r.map TeamRec.figures != x.map TeamRec.figures) = (r.map TeamRec.total != x.map TeamRec.total) := by
  have hzip : ∀ l : List TeamRec, l.map TeamRec.figures = (l.map TeamRec.total).zip (l.map fun y => (y.rights, y.wrongs)) :=
    fun l => List.zip_map'.symm
  rw [Bool.eq_iff_iff, bne_iff_ne, bne_iff_ne, not_iff_not]
  constructor
  · intro he
    have hfst := congrArg (List.map Prod.fst) he
    simpa [List.map_map, Function.comp_def, TeamRec.figures] using hfst
  · intro he
    rw [hzip, hzip, he, h]

/-- The page in the scoreboard: its own totals, and whether one differed (R153). -/
theorem takePage_eq (page : Nat) (totals : List Half) (hlen : totals.length = 4) (s : State) :
    let records := s.scu.records.mapIdx fun i x =>
      if 4 * page ≤ i ∧ i < 4 * page + 4 then
        { x with total := checkOf (totals.getD (i - 4 * page) 0), unconfirmed := false }
      else x
    let differs := records.map TeamRec.total != s.scu.records.map TeamRec.total
    takePage page (totals.map BitVec.toInt) s =
      (s.withScu ⟨ranked records⟩).withCmp
        { s.cmp with flags := s.cmp.flags ||| (raisedIf differs .scoreChanged ||| raisedIf differs .diverged) } := by
  intro records differs
  have hfig : (records.map TeamRec.figures != s.scu.records.map TeamRec.figures) = differs := by
    refine figures_bne _ _ (List.ext_getElem (by simp [records]) fun i h1 h2 => ?_)
    simp only [records, List.getElem_map, List.getElem_mapIdx]
    split <;> rfl
  have hpage : takePage page (totals.map BitVec.toInt) s = raiseIf differs .diverged (commitScores records s) := by
    unfold takePage
    rw [tallyRecords_eq page totals hlen]
  rw [hpage, raiseIf_eq, commitScores_eq, hfig]
  simp [State.withScu, State.withCmp, BitVec.or_assoc]

theorem queueLeft_if (again : Bool) (c : Content) (q : List QFrame) :
    queueLeft (if again then some c else none) q =
      if again then insertFrame (fresh c .cnf) (q.filter fun x => !x.inAttempt) else q.filter fun x => !x.inAttempt := by
  cases again <;> rfl

/-- What the TAKEN of a page leaves: its place empty, or asked for again if it was dirty (R41, R42, R173). -/
theorem takenAtLine_page (g : QFrame) (p : Fin 4) (s : State) (hq : QueueSound s) (hx : s.lcu.tx = .slots)
    (hg : attempted s = some g) (hp : g.place = .tally p) :
    let rest := s.lcu.queue.filter fun x => !x.inAttempt
    let queue := if s.cnf.dirty.contains p.val then insertFrame (fresh (.tally p none) .cnf) rest else rest
    let tx : TxState := if queue = [] then .idle else .waiting
    takenAtLine s =
      ((s.withLif (hunted s.lif)).withLcu
        { s.lcu with queue := queue, tx := tx, history := entered [tx] s.lcu.history, domFrame := none }).withCnf
        { s.cnf with dirty := s.cnf.dirty.filter (· != p.val) } := by
  intro rest queue tx
  obtain ⟨-, -, ⟨-, -, hpending, -⟩, -⟩ := attempted_sound s g hq hg
  have hpend : g.pending = none := by
    cases hpd : g.pending with
    | none => rfl
    | some c => simpa [hp] using (hpending c (by simp [hpd])).2
  have hgoes : goesAt .taken g = true := by simp [goesAt, hpend]
  have hqueue : queueAt .taken g (frameEnd s) = queue := by
    rw [queueAt, if_pos hgoes]
    simp only [againAt, hp, queue, frameEnd, State.withLcu_cnf, State.withLif_cnf, State.withLcu_lcu]
    exact queueLeft_if _ _ _
  have hcnf : cnfAt .taken g (frameEnd s) = { s.cnf with dirty := s.cnf.dirty.filter (· != p.val) } := by
    simp [cnfAt, hp, frameEnd]
  have hown : takenAtLine s = settleTx (attemptEnded .taken g (frameEnd s)) := by
    rw [← endAttempt_eq .taken g (frameEnd s) hq hg]
    simp [takenAtLine, ownAttempt, hx]
  have hended : attemptEnded .taken g (frameEnd s) =
      ((s.withLif (hunted s.lif)).withLcu { lcuIdle s with queue := queue }).withCnf
        { s.cnf with dirty := s.cnf.dirty.filter (· != p.val) } := by
    simp only [attemptEnded, hqueue, hcnf]
    simp [recordAt, dropsAt_taken, raisedIf, hp, frameEnd, State.withLcu, State.withLif, State.withCnf]
    rfl
  have hsettle : ∀ u : State, settleTx u = u.withLcu (settleTx u).lcu := fun u => rfl
  rw [hown, hended, hsettle, settleTx_lcu]
  rfl

/-- A page is taken by another desk in phase with its number alone (R153). -/
theorem tallyEffect_eq (page : Byte) (totals : List Half) (s : State) :
    tallyEffect 0 page totals s =
      if s.suu.identity.desk ≠ 0 ∧ page.toNat ≤ 3 then takePage page.toNat (totals.map BitVec.toInt) s else s := by
  simp [tallyEffect, eq_comm]

/-- Settles O42: another desk's page in the scoreboard, and the console's own page at its queue. -/
theorem tallyTaken : Obligations.TallyTaken := by
  intro round page c1 c2 c3 c4 s f hc ht hsc totals records differs
  have hident : ∀ x, (tallyEffect 0 page totals x).suu.identity = x.suu.identity :=
    fun x => (tallyEffect_keptSound 0 page totals x).identity
  refine ⟨fun hx hd => ?_, fun g p hq hx hd hg hp => ?_⟩
  · have htaken := takes_heard f (tallyEffect 0 page totals) s ⟨hc, hx, Ne.symm hd⟩ ht rfl hident
    refine ⟨_, htaken, ?_, ?_, fun hpage => ?_, fun hpage => ?_⟩
    all_goals rw [tallyEffect_eq]
    · split
      · exact ⟨by rw [refresh_lif, takePage_lif]; rfl, by rw [refresh_prs, takePage_prs]; rfl⟩
      · exact received_of f s _ rfl rfl
    · split
      · rw [refresh_lcu, takePage_lcu]
        rfl
      · rfl
    · rw [if_pos (show (heard f s).suu.identity.desk ≠ 0 ∧ page.toNat ≤ 3 from ⟨hd, hpage⟩), takePage_eq _ _ rfl]
      refine ⟨rfl, stepFrame_of _ _ s _ (fun b hb h1 h2 => ?_) (fun _ => rfl) (fun _ => rfl) ?_ rfl⟩
      · cases b <;> simp_all [Block.same, heard]
      · show (s.cmp.flags ||| heardFlag f s) ||| (raisedIf differs _ ||| raisedIf differs _) = _
        simp only [BitVec.or_assoc]
    · rw [if_neg fun hn => absurd hn.2 (Nat.not_le.mpr hpage)]
      exact stepFrame_of _ _ s _ (fun b hb h1 h2 => by cases b <;> simp_all [Block.same, heard]) (fun _ => rfl)
        (fun _ => rfl) rfl rfl
  · have hown : Takes (.tally p) f s := ⟨hc, .inr ⟨hd.symm, hx, g, by simp [hg], hp⟩⟩
    have htaken := takes_allowed (.tally p) f (tallyEffect 0 page totals) s hown rfl hident
    have hsound : TablesSound (takenAtLine s) := by
      rw [takenAtLine_page g p s hq hx hg hp]
      obtain ⟨h1, h2, h3, h4, h5, h6, h7⟩ := ht
      exact ⟨h1, h2, h3, h4, h5.filter _, h6, h7⟩
    rw [markHeard_eq _ _ _ hsound, takenAtLine_page g p s hq hx hg hp, tallyEffect_eq, if_neg fun hn => hn.1 hd] at htaken
    refine ⟨_, htaken, received_of f s _ rfl rfl, rfl, rfl, ?_⟩
    exact stepFrame_of _ _ s _ (fun b hb h1 h2 => by cases b <;> simp_all [Block.same]) (fun _ => rfl) (fun _ => rfl) rfl rfl

end Sys2Proof.Machine

namespace Sys2Proof.Machine

open Sys2Proof.Safety

/-! ### REVEAL taken (R94, R95, R130, R148, R174) -/

theorem plainPlace_reveal : PlainPlace .reveal := ⟨by simp, by simp, by simp⟩

theorem withdrawnQueue_choice (q : List QFrame) : withdrawnQueue (withdrawPlace .choice q) = withdrawnQueue q := by
  unfold withdrawnQueue withdrawPlace
  induction q with
  | nil => rfl
  | cons a l ih =>
    cases hp : a.place <;> cases hi : a.inAttempt <;> simp [ownPlace, hp, hi] at ih ⊢ <;> exact ih

theorem leavesAtOnce_choice (q : List QFrame) : leavesAtOnce .choice (withdrawPlace .choice q) = false := by
  unfold leavesAtOnce withdrawPlace
  rw [List.any_eq_false]
  intro f hf
  obtain ⟨g, hg, rfl⟩ := List.mem_map.mp hf
  have hkept := (List.mem_filter.mp hg).2
  by_cases hp : g.place = .choice <;> simp_all

/-- The own frames withdrawn after the CHOICE has been are the own frames withdrawn (R94, R95). -/
theorem withdrawnOwn_choice (m t : State) (hs : (m.lcu.queue.map fun f => f.place.index).Pairwise (· < ·))
    (hw : m.lcu.tx = .waiting → m.lcu.queue ≠ []) (h : WithdrawnOwn (withdraw .choice m) t) : WithdrawnOwn m t := by
  have hclaim := leavesAtOnce_withdrawPlace .claim .choice m.lcu.queue (by decide)
  rw [withdraw_eq .choice m hs (.inr (.inl rfl)) hw] at h
  obtain ⟨hlcu, hicu⟩ := h
  constructor
  · unfold WithdrawnFrames at hlcu ⊢
    simp only [State.withIcu_lcu, State.withLcu_lcu, withdrawnQueue_choice] at hlcu
    rw [hlcu]
    by_cases htx : m.lcu.tx = .waiting
    · cases hq : withdrawPlace .choice m.lcu.queue with
      | nil =>
        have hnil : withdrawnQueue m.lcu.queue = [] := by rw [← withdrawnQueue_choice, hq]; rfl
        simp [htx, hnil]
      | cons f q => cases withdrawnQueue m.lcu.queue <;> simp [htx]
    · have hno : (m.lcu.tx == .waiting) = false := by simpa using htx
      simp [hno]
  · simp only [State.withIcu_lcu, State.withLcu_lcu, State.withIcu_icu, hclaim, leavesAtOnce_choice] at hicu
    rw [hicu]
    simp

theorem withdrawnOwn_congr {m n t : State} (hl : n.lcu = m.lcu) (hi : n.icu = m.icu) (h : WithdrawnOwn m t) :
    WithdrawnOwn n t := by
  unfold WithdrawnOwn WithdrawnFrames at h ⊢
  rw [hl, hi]
  exact h

/-- A scoreboard and flags changed between the CHOICE's withdrawal and the round's end are no part of either (R94, R95). -/
theorem revealed_ends (m : State) (x : Scu) (c : Cmp) (hq : QueueSound m) :
    let t := enterEnded (((withdraw .choice m).withScu x).withCmp c)
    RoundEnds m t ∧
      ∃ l i, t =
        (((((m.withRng { m.rng with phase := .ended, answerRunning := false }).withRck
          { m.rck with running := false }).withScu x).withCmp
            { c with flags := c.flags ||| Event.roundEnded.flag }).withLcu l).withIcu i := by
  intro t
  obtain ⟨hs, hw⟩ := withdrawable m hq
  obtain ⟨l0, i0, hwithdrawn⟩ : ∃ l i, withdraw .choice m = (m.withLcu l).withIcu i :=
    ⟨_, _, withdraw_eq .choice m hs (.inr (.inl rfl)) hw⟩
  have hsound := (withdraw_keptSound .choice m).queue hq
  have hchoice : ∀ u, WithdrawnOwn (withdraw .choice m) u → WithdrawnOwn m u := fun u => withdrawnOwn_choice m u hs hw
  simp only [t]
  rw [hwithdrawn] at hsound hchoice ⊢
  obtain ⟨hs0, hw0⟩ := withdrawable _ hsound
  obtain ⟨⟨hrng, hrck, hown⟩, -, -⟩ :=
    enterEnded_spec ((((m.withLcu l0).withIcu i0).withScu x).withCmp c) hs0 hw0
  obtain ⟨-, l, i, hwrites⟩ := withdrawOwn_spec
    ((((((m.withLcu l0).withIcu i0).withScu x).withCmp c).withRng
      { m.rng with phase := .ended, answerRunning := false }).withRck { m.rck with running := false }) hs0 hw0
  refine ⟨⟨hrng, hrck, ?_⟩, l, i, ?_⟩
  · exact hchoice _ (withdrawnOwn_congr rfl rfl hown)
  · exact congrArg (raise .roundEnded) hwrites

/-- The records that a REVEAL of this key leaves (R130, R148). -/
def revealedRecords (key : Byte) (s : State) : List TeamRec :=
  if key = 0 then s.scu.records
  else List.zipWith (revealRecord s.rng (s.suu.identity.role == .console) key.toNat) s.cht.records s.scu.records

theorem scoreReveal_eq (key : Byte) (s : State) (h : ScoresSound s) :
    (if key = 0 then s else scoreReveal key.toNat s) =
      (s.withScu ⟨ranked (revealedRecords key s)⟩).withCmp
        { s.cmp with
          flags := s.cmp.flags |||
            raisedIf ((revealedRecords key s).map TeamRec.figures != s.scu.records.map TeamRec.figures) .scoreChanged } := by
  unfold revealedRecords
  split
  · rw [ranked_sound s h]
    simp [raisedIf, State.withScu, State.withCmp]
  · exact commitScores_eq _ _

/-- The record that a REVEAL leaves, in the terms of R148. -/
theorem revealRecord_eq (r : Rng) (confirmed : Bool) (key : Nat) (c : ChoiceRec) (x : TeamRec) :
    revealRecord r confirmed key c x =
      if c.key = 0 then x
      else if c.key = key then
        { x with
          total := applyDelta r.noneg x.total (r.v + speedBonus r c.stamp), rights := min 255 (x.rights + 1)
          unconfirmed := if confirmed then x.unconfirmed else true }
      else
        { x with
          total := applyDelta r.noneg x.total (-r.w), wrongs := min 255 (x.wrongs + 1)
          unconfirmed := if confirmed then x.unconfirmed else true } := by
  unfold revealRecord scoreRecord countOutcome
  split
  · rfl
  · split <;> simp <;> rfl

theorem revealApplies_iff (r : Rng) (round key : Nat) :
    revealApplies r round key = true ↔ round = r.round ∧ r.phase = .closing ∧ key ≤ 4 := by
  simp [revealApplies, and_assoc]

/-- The state in which the round of a REVEAL ends: key set, CHOICE withdrawn, records scored (R94, R148). -/
def revealedState (key : Byte) (m : State) : State :=
  ((withdraw .choice (m.withRng { m.rng with correctKey := some key.toNat })).withScu
    ⟨ranked (revealedRecords key m)⟩).withCmp
    { m.cmp with
      flags := m.cmp.flags |||
        raisedIf ((revealedRecords key m).map TeamRec.figures != m.scu.records.map TeamRec.figures) .scoreChanged }

theorem revealEffect_eq (round key : Byte) (m : State) (hq : QueueSound m) (hsc : ScoresSound m)
    (h : revealApplies m.rng round.toNat key.toNat = true) :
    revealEffect round key m =
      if consoleStation (enterEnded (revealedState key m)) then requestAllPages (enterEnded (revealedState key m))
      else enterEnded (revealedState key m) := by
  obtain ⟨hs, hw⟩ := withdrawable m hq
  obtain ⟨l, i, hwithdrawn⟩ : ∃ l i, withdraw .choice (m.withRng { m.rng with correctKey := some key.toNat }) =
      ((m.withRng { m.rng with correctKey := some key.toNat }).withLcu l).withIcu i :=
    ⟨_, _, withdraw_eq .choice (m.withRng { m.rng with correctKey := some key.toNat }) hs (.inr (.inl rfl)) hw⟩
  have hscored := scoreReveal_eq key
    (((m.withRng { m.rng with correctKey := some key.toNat }).withLcu l).withIcu i) hsc
  unfold revealEffect revealedState
  rw [if_pos h, hwithdrawn]
  dsimp only
  rw [hscored]
  rfl

/-- That state with the round ended: what the REVEAL changes beside queue, transmitter and press record. -/
def revealedEnd (key : Byte) (m : State) (l : Lcu) (i : Icu) : State :=
  (((((m.withRng { m.rng with correctKey := some key.toNat, phase := .ended, answerRunning := false }).withRck
    { m.rck with running := false }).withScu ⟨ranked (revealedRecords key m)⟩).withCmp
    { m.cmp with
      flags := (m.cmp.flags |||
        raisedIf ((revealedRecords key m).map TeamRec.figures != m.scu.records.map TeamRec.figures) .scoreChanged) |||
        Event.roundEnded.flag }).withLcu l).withIcu i

theorem revealedState_ends (key : Byte) (m : State) (hq : QueueSound m) :
    RoundEnds (m.withRng { m.rng with correctKey := some key.toNat }) (enterEnded (revealedState key m)) ∧
      ∃ l i, enterEnded (revealedState key m) = revealedEnd key m l i :=
  revealed_ends (m.withRng { m.rng with correctKey := some key.toNat }) _ _ hq

theorem revealedState_sound (key : Byte) (m : State) (hq : QueueSound m) : QueueSound (enterEnded (revealedState key m)) :=
  (enterEnded_keptSound _).queue
    ((withdraw_keptSound .choice (m.withRng { m.rng with correctKey := some key.toNat })).queue hq)

/-- A sound queue under a transmitter in no attempt rests (R41). -/
theorem resting_of_tx (u : State) (hq : QueueSound u) (h : attemptState u.lcu.tx = false) :
    Resting u.lcu.queue ∧ (u.lcu.tx = .idle → u.lcu.queue = []) := by
  obtain ⟨-, -, ⟨hidle, -, hcount⟩, -⟩ := hq
  exact ⟨(resting_iff _).mpr (by simpa [h] using hcount), fun hx => hidle (.inl hx)⟩

theorem tx_of_resting (u : State) (hq : QueueSound u) (h : Resting u.lcu.queue) : attemptState u.lcu.tx = false := by
  obtain ⟨-, -, ⟨-, -, hcount⟩, -⟩ := hq
  rw [inAttemptCount, (resting_iff _).mp h] at hcount
  cases ha : attemptState u.lcu.tx
  · rfl
  · rw [ha] at hcount
    cases hcount

/-- The withdrawal of the own frames starts no attempt. -/
theorem withdrawnFrames_tx {m t : State} (h : WithdrawnFrames m t) (hm : attemptState m.lcu.tx = false) :
    attemptState t.lcu.tx = false := by
  unfold WithdrawnFrames at h
  rw [h]
  dsimp only
  split
  · rfl
  · exact hm

/-- A console on a line in HUNT, its transmitter in no attempt, asks for its four pages (R174). -/
theorem requestAllPages_hunting (e : State) (hq : QueueSound e) (htx : attemptState e.lcu.tx = false)
    (hwork : e.suu.startUp.atWork = true) (hline : lineIdle e = false ∧ joinable e = false) :
    (if consoleStation e then requestAllPages e else e) =
      e.withLcu (if e.suu.identity.role = .console then lcuPages e.lcu else e.lcu) := by
  obtain ⟨hrest, hidle⟩ := resting_of_tx e hq htx
  have hc : consoleStation e = true ↔ e.suu.identity.role = .console := by simp [consoleStation, hwork]
  simp only [hc]
  split
  next hr => exact requestAllPages_quiet e ⟨hr, hwork, hline, hrest⟩ hidle
  next hr => rfl

/-- Settles O43: key, CHOICE, scores and the round's end, then the console's pages. -/
theorem revealTaken : Obligations.RevealTaken := by
  intro round key s f h ht hq hsc applies console marked score records
  have htaken := takes_taken .reveal f (revealEffect round key) s h ht hq plainPlace_reveal rfl
    fun u => (revealEffect_keptSound round key u).identity
  obtain ⟨hsound, hrest⟩ := takenHeard_sound .reveal f s h ht hq plainPlace_reveal
  have happlies : applies ↔ revealApplies s.rng round.toNat key.toNat = true := (revealApplies_iff _ _ _).symm
  by_cases ha : applies
  case neg =>
    have hnothing : revealEffect round key (takenHeard f s) = takenHeard f s := if_neg (mt happlies.mpr ha)
    rw [hnothing] at htaken
    exact ⟨_, htaken, received_of f s _ rfl rfl, fun hn => absurd hn ha, fun _ => ⟨rfl, takenHeard_stepFrame f s⟩⟩
  have hscore : revealRecord s.rng (s.suu.identity.role == .console) key.toNat = score := by
    funext c x
    rw [revealRecord_eq]
    by_cases hc : s.suu.identity.role = .console <;> simp [score, marked, console, hc]
  have hrecords : revealedRecords key (takenHeard f s) = records :=
    congrArg (fun g => if key = 0 then s.scu.records else List.zipWith g s.cht.records s.scu.records) hscore
  rw [revealEffect_eq round key _ hsound hsc (happlies.mp ha)] at htaken
  have hesound := revealedState_sound key (takenHeard f s) hsound
  obtain ⟨hends, l, i, hwrites⟩ := revealedState_ends key (takenHeard f s) hsound
  generalize enterEnded (revealedState key (takenHeard f s)) = e at htaken hesound hends hwrites
  have hsuu : e.suu = s.suu := by rw [hwrites]; rfl
  have hlif : e.lif = hunted s.lif := by rw [hwrites]; rfl
  have htx : attemptState e.lcu.tx = false := withdrawnFrames_tx hends.2.2.1 (tx_of_resting (takenHeard f s) hsound hrest)
  rw [requestAllPages_hunting e hesound htx (by rw [hsuu]; exact canTake_work h.1)
    (by simp [lineIdle, joinable, edgePending, hlif]), hsuu] at htaken
  refine ⟨_, htaken, ⟨hlif, by rw [hwrites]; rfl⟩, fun _ => ⟨⟨e, ?_, rfl, rfl, rfl, rfl⟩, ?_, ?_⟩, fun hn => absurd ha hn⟩
  · exact roundEnds_congr ⟨rfl, rfl, rfl, rfl, rfl⟩ ⟨rfl, rfl, rfl, rfl, rfl⟩ hends
  · rw [hwrites, ← hrecords]
    rfl
  · rw [hwrites]
    refine stepFrame_of _ _ s _ (fun b hb h1 h2 => ?_) (fun _ => rfl) (fun _ => rfl) ?_ rfl
    · cases b <;> simp_all [Block.same, revealedEnd, takenHeard]
    · show ((s.cmp.flags ||| heardFlag f s) ||| raisedIf ((revealedRecords key (takenHeard f s)).map _ != _) _) ||| _ = _
      rw [hrecords, BitVec.or_assoc, BitVec.or_assoc, BitVec.or_assoc]
      rw [BitVec.or_comm _ Event.roundEnded.flag]
      rfl

end Sys2Proof.Machine

namespace Sys2Proof.Machine

open Sys2Proof.Safety

/-! ### ROLL taken (R191, R192) -/

theorem plainPlace_roll : PlainPlace .roll := ⟨by simp, by simp, by simp⟩

/-- The polling that the console's own ROLL starts, unless one is under way (R191). -/
def pollingFrom (id window : Nat) (x : Cnf) : Cnf :=
  if x.rollState = .polling then x
  else
    { x with
      rollState := .polling, currentRoll := some id, window := some (max 5 window), replySet := []
      windowTimer := .running (max 5 window * 10000) }

theorem startPolling_console (id window : Nat) (s : State) (h : consoleStation s = true) :
    startPolling id window s = s.withCnf (pollingFrom id window s.cnf) := by
  unfold startPolling pollingFrom
  cases hr : s.cnf.rollState
  · rw [if_pos ⟨h, rfl⟩]
    rfl
  · rw [if_neg (by simp)]
    rfl

theorem startPolling_elsewhere (id window : Nat) (s : State) (h : s.suu.identity.role ≠ .console) :
    startPolling id window s = s :=
  if_neg (by simp [consoleStation, h])

theorem answersRoll_iff (s : State) :
    answersRoll s = true ↔
      s.suu.identity.desk ≠ 0 ∧ s.suu.startUp = .joined ∧ s.suu.muted = false ∧ s.lcu.tx ≠ .halted := by
  simp [answersRoll, and_assoc]

/-- A hand-over reads line controller and line interface, and what an attempt carries (R36, R40). -/
theorem queued_congr {c : Content} {h : Hander} {m n t u : State} (hl : n.lcu = m.lcu) (hi : n.lif = m.lif)
    (hb : ∀ g, begun n g = begun m g) (ht : u.lcu = t.lcu) (hq : Queued c h m t) : Queued c h n u := by
  have hoffered : ∀ q, offered n q = offered m q := offered_congr m n hb
  unfold Queued at hq ⊢
  simp only [hl, hi, ht, hoffered]
  exact hq

/-- A receiver that answers no roll leaves what it heard (R192). -/
theorem heard_stepFrame (f : Frame) (s : State) : StepFrame [.lif, .prs, .lcu] (heardFlag f s) s (refresh (heard f s)) :=
  stepFrame_of _ _ s _ (fun b hb h1 h2 => by cases b <;> simp_all [Block.same, heard]) (fun _ => rfl) (fun _ => rfl) rfl rfl

/-- The PRESENT that a roll asks for, from the station's own state (R192). -/
def presentOf (id : Byte) (s : State) : Content :=
  .present (roleCode s.suu.identity.role) (byteOf s.suu.identity.team) id
    (bitAt 0 (s.rng.phase == .unsynced) ||| bitAt 1 s.lcu.recovered ||| bitAt 2 (s.scu.records.any TeamRec.unconfirmed))

theorem rollEffect_elsewhere (id window : Byte) (s : State) (h : s.suu.identity.role ≠ .console) :
    rollEffect id window s = if answersRoll s then handOver (presentOf id s) .prs s else s := by
  unfold rollEffect
  rw [startPolling_elsewhere _ _ s h]
  rfl

/-- Settles O44: the answer to the hand-over of the PRESENT, or the console's polling. -/
theorem rollTaken : Obligations.RollTaken := by
  intro round id window s f
  have hident : ∀ x, (rollEffect id window x).suu.identity = x.suu.identity :=
    fun x => (rollEffect_keptSound id window x).identity
  refine ⟨fun h ht hrole => ?_, fun hc hown ht hq hdesk hrole => ?_⟩
  · have hnot : s.suu.identity.role ≠ .console := by rcases hrole with hr | hr <;> simp [hr]
    have hplace : s.suu.identity.role.hasPlace .present = true := by rcases hrole with hr | hr <;> simp [hr, Role.hasPlace]
    have hdesk : s.suu.identity.desk ≠ 0 := Ne.symm h.2.2
    have hwork := canTake_work h.1
    have htaken := takes_heard f (rollEffect id window) s h ht rfl hident
    rw [rollEffect_elsewhere id window (heard f s) hnot] at htaken
    have hanswers : answersRoll (heard f s) = true ↔
        s.suu.startUp = .joined ∧ s.suu.muted = false ∧ s.lcu.tx ≠ .halted :=
      (answersRoll_iff _).trans ⟨fun hn => hn.2, fun hn => ⟨hdesk, hn⟩⟩
    by_cases hans : answersRoll (heard f s) = true
    · obtain ⟨hj, hm, hh⟩ := hanswers.mp hans
      rw [if_pos hans] at htaken
      by_cases hx : s.lcu.tx = .muted
      · obtain ⟨-, hdropped⟩ := handOver_shut (presentOf id (heard f s)) .prs (heard f s) ((shut_iff _).mpr (.inr hx))
        rw [hdropped] at htaken
        refine ⟨_, htaken, ⟨rfl, rfl⟩, fun _ _ _ hn => absurd hx hn, fun hn => by simp_all⟩
      have hshut : (heard f s).lcu.tx.shut = false := not_shut hh hx
      cases hfr : frameAt .present s.lcu.queue with
      | none =>
        have ha := handAnswer_queued (presentOf id (heard f s)) (heard f s) hshut hwork hplace hfr
        obtain ⟨hqueued, l, heq⟩ := handOver_queued _ .prs _ ha
        rw [heq] at htaken hqueued
        refine ⟨_, htaken, ⟨rfl, rfl⟩, fun _ _ _ _ _ => ⟨?_, ?_⟩, fun hn => by simp_all⟩
        · exact queued_congr rfl rfl (fun _ => rfl) rfl hqueued
        · refine stepFrame_of _ _ s _ (fun b hb h1 h2 => ?_) (fun _ => rfl) (fun _ => rfl) rfl rfl
          cases b <;> simp_all [Block.same, heard]
      | some g =>
        have ha := (handAnswer_occupied (presentOf id (heard f s)) (heard f s) g hshut hwork hplace hfr).trans
          (if_neg fun hn => absurd hn.1 (by simp [presentOf, Content.place]))
        have hstays : handOver (presentOf id (heard f s)) .prs (heard f s) = heard f s := by simp [handOver, ha]
        rw [hstays] at htaken
        exact ⟨_, htaken, ⟨rfl, rfl⟩, fun _ _ _ _ hn => by simp_all, fun _ => ⟨rfl, heard_stepFrame f s⟩⟩
    · rw [if_neg hans] at htaken
      refine ⟨_, htaken, ⟨rfl, rfl⟩, fun h1 h2 h3 _ _ => absurd (hanswers.mpr ⟨h1, h2, h3⟩) hans,
        fun _ => ⟨rfl, heard_stepFrame f s⟩⟩
  · have hwork := canTake_work hc
    have htaken := takes_taken .roll f (rollEffect id window) s ⟨hc, .inr ⟨hdesk.symm, hown⟩⟩ ht hq
      plainPlace_roll rfl hident
    have hconsole : consoleStation (takenHeard f s) = true := by
      simp only [consoleStation, Bool.and_eq_true, beq_iff_eq]
      exact ⟨hrole, hwork⟩
    have heff : rollEffect id window (takenHeard f s) =
        (takenHeard f s).withCnf (pollingFrom id.toNat window.toNat s.cnf) := by
      unfold rollEffect
      rw [startPolling_console _ _ _ hconsole]
      exact if_neg fun hn => ((answersRoll_iff ((takenHeard f s).withCnf _)).mp hn).1 hdesk
    rw [heff] at htaken
    refine ⟨_, htaken, received_of f s _ rfl rfl, rfl, rfl, stepFrame_of _ _ s _ (fun b hb h1 h2 => ?_) (fun _ => rfl)
      (fun _ => rfl) rfl rfl⟩
    cases b <;> simp_all [Block.same, takenHeard]

end Sys2Proof.Machine

namespace Sys2Proof.Machine

open Sys2Proof.Safety

/-! ### Console commands (R159) -/

theorem consoleStation_iff (s : State) :
    consoleStation s = true ↔ s.suu.identity.role = .console ∧ (s.suu.startUp = .joining ∨ s.suu.startUp = .joined) := by
  simp [consoleStation, atWork_eq]

/-- A console command at a working console (R159). -/
theorem consoleCommand_next (code : Byte) (f : State → State) (s : State) (hs : s.cmp.transfer = .shifting)
    (hc : consoleStation s = true) : consoleCommand code f s = .next (refresh (f s)) := by
  unfold consoleCommand
  rw [command_shifting _ s hs, if_pos hc]

/-- A console command anywhere else (R159). -/
theorem consoleCommand_wrongRole (code : Byte) (f : State → State) (s : State) (hs : s.cmp.transfer = .shifting)
    (hc : ¬consoleStation s = true) :
    ∃ t, consoleCommand code f s = .next t ∧ OnlyReplied code .wrongRole [] s t := by
  unfold consoleCommand
  rw [command_shifting _ s hs, if_neg hc]
  exact ⟨_, rfl, answer_onlyReplied code .wrongRole [] s⟩

/-- A console command that is refused (R159). -/
theorem consoleCommand_refused (code : Byte) (rc : ReplyCode) (f : State → State) (s : State)
    (hs : s.cmp.transfer = .shifting) (hc : consoleStation s = true) (hf : f s = answer code rc [] s) :
    ∃ t, consoleCommand code f s = .next t ∧ OnlyReplied code rc [] s t := by
  rw [consoleCommand_next code f s hs hc, hf]
  exact ⟨_, rfl, answer_onlyReplied code rc [] s⟩

/-- A command that is answered once its operation has raised these flags (R195). -/
theorem answer_raised_replied (code : Byte) (rc : ReplyCode) (body : List Byte) (s u : State) (raised : BitVec 14)
    (h : u.cmp = { s.cmp with flags := s.cmp.flags ||| raised }) :
    Replied code rc body s (refresh (answer code rc body u)) := by
  unfold Replied
  rw [refresh_cmp]
  simp [answer, Cmp.release, replyRecord, h]

theorem answer_raised_stepFrame (changed : List Block) (code : Byte) (rc : ReplyCode) (body : List Byte) (s u : State)
    (raised : BitVec 14) (hcmp : .cmp ∈ changed) (hfree : .free ∈ changed)
    (h : ∀ b, b ∉ changed → b ≠ .pnl → b ≠ .cmp → b.same s u) (hp : u.pnl = s.pnl)
    (hc : u.cmp = { s.cmp with flags := s.cmp.flags ||| raised }) (hq : u.pending = s.pending) :
    StepFrame changed raised s (refresh (answer code rc body u)) := by
  refine stepFrame_of changed raised s _ (fun b hb h1 h2 => ?_) (fun _ => hp) (fun hn => absurd hcmp hn) ?_ hq
  · have hb' := h b hb h1 h2
    cases b <;> simp_all [Block.same]
  · simp [answer, Cmp.release, hc]

end Sys2Proof.Machine

namespace Sys2Proof.Machine

open Sys2Proof.Safety

/-! ### A console command that hands one frame (R36, R159) -/

section
variable (code : Byte) (c : Content) (body : List Byte) (effect : State → State) (s : State)

/-- The hand-over answered QUEUED: OK with line outcome 0. -/
theorem handCommand_queued (hx : s.lcu.tx.shut = false) (hw : s.suu.startUp.atWork = true)
    (hplace : s.suu.identity.role.hasPlace c.place = true) (hn : frameAt c.place s.lcu.queue = none)
    (queued : Cnf) (rng : Rng)
    (heffect : handAnswer c s = .queued → ∀ l, effect (s.withLcu l) = ((s.withLcu l).withCnf queued).withRng rng) :
    let t := refresh (handCommand code c body effect s)
    Replied code .ok (body ++ [0]) s t ∧ t.cnf = queued ∧ t.rng = rng ∧ Queued c .cnf s t ∧
      StepFrame [.cmp, .free, .lcu, .cnf, .rng] 0 s t := by
  have ha := handAnswer_queued c s hx hw hplace hn
  obtain ⟨hq, l, heq⟩ := handOver_queued c .cnf s ha
  have hstate : handCommand code c body effect s =
      answer code .ok (body ++ [0]) (((s.withLcu l).withCnf queued).withRng rng) := by
    unfold handCommand
    rw [ha, heq, heffect ha]
    rfl
  rw [heq] at hq
  rw [hstate]
  refine ⟨answer_replied _ _ _ _ _ rfl, rfl, rfl, hq, ?_⟩
  exact answer_stepFrame _ _ _ _ s _ (by simp) (by simp) (fun b hb h1 h2 => by cases b <;> simp_all [Block.same]) rfl rfl rfl

/-- An occupied place: PENDING. -/
theorem handCommand_occupied (hx : s.lcu.tx.shut = false) (hw : s.suu.startUp.atWork = true)
    (hplace : s.suu.identity.role.hasPlace c.place = true) (hc : c.place ≠ .choice)
    (hn : frameAt c.place s.lcu.queue ≠ none) :
    OnlyReplied code .pending [] s (refresh (handCommand code c body effect s)) := by
  obtain ⟨f, hf⟩ := Option.ne_none_iff_exists'.mp hn
  have ha := (handAnswer_occupied c s f hx hw hplace hf).trans (if_neg fun h => hc h.1)
  have hstate : handCommand code c body effect s = answer code .pending [] s := by
    unfold handCommand
    rw [ha]
    rfl
  rw [hstate]
  exact answer_onlyReplied code .pending [] s

/-- A shut transmitter: OK with line outcome 1. -/
theorem handCommand_shut (hx : s.lcu.tx.shut = true) (dropped : Cnf)
    (heffect : handAnswer c s = .dropped → effect (raise .txDropped s) = (raise .txDropped s).withCnf dropped) :
    let t := refresh (handCommand code c body effect s)
    Replied code .ok (body ++ [1]) s t ∧ t.cnf = dropped ∧ t.rng = s.rng ∧
      StepFrame [.cmp, .free, .cnf] Event.txDropped.flag s t := by
  obtain ⟨ha, heq⟩ := handOver_shut c .cnf s hx
  have hstate : handCommand code c body effect s =
      answer code .ok (body ++ [1]) ((raise .txDropped s).withCnf dropped) := by
    unfold handCommand
    rw [ha, heq, heffect ha]
    rfl
  rw [hstate]
  refine ⟨answer_raised_replied _ _ _ _ _ _ rfl, by simp, by simp, ?_⟩
  exact answer_raised_stepFrame _ _ _ _ s _ _ (by simp) (by simp)
    (fun b hb h1 h2 => by cases b <;> simp_all [Block.same]) rfl rfl rfl

/-- The three answers of such a command, under whatever number it stands. -/
theorem handCommand_hands (i : Instr) (queued dropped : Cnf) (rng : Rng)
    (hexec : exec i s = .next (refresh (handCommand code c body effect s))) (hw : s.suu.startUp.atWork = true)
    (hplace : s.suu.identity.role.hasPlace c.place = true) (hc : c.place ≠ .choice)
    (hqueued : handAnswer c s = .queued → ∀ l, effect (s.withLcu l) = ((s.withLcu l).withCnf queued).withRng rng)
    (hdropped : handAnswer c s = .dropped → effect (raise .txDropped s) = (raise .txDropped s).withCnf dropped) :
    (s.lcu.tx ≠ .halted → s.lcu.tx ≠ .muted → frameAt c.place s.lcu.queue = none →
      ∃ t, exec i s = .next t ∧ Replied code .ok (body ++ [0]) s t ∧ t.cnf = queued ∧ t.rng = rng ∧ Queued c .cnf s t ∧
        StepFrame [.cmp, .free, .lcu, .cnf, .rng] 0 s t) ∧
    (s.lcu.tx ≠ .halted → s.lcu.tx ≠ .muted → frameAt c.place s.lcu.queue ≠ none →
      ∃ t, exec i s = .next t ∧ OnlyReplied code .pending [] s t) ∧
    (s.lcu.tx = .halted ∨ s.lcu.tx = .muted →
      ∃ t, exec i s = .next t ∧ Replied code .ok (body ++ [1]) s t ∧ t.cnf = dropped ∧ t.rng = s.rng ∧
        StepFrame [.cmp, .free, .cnf] Event.txDropped.flag s t) :=
  ⟨fun h1 h2 hn => ⟨_, hexec, handCommand_queued code c body effect s (not_shut h1 h2) hw hplace hn queued rng hqueued⟩,
    fun h1 h2 hn => ⟨_, hexec, handCommand_occupied code c body effect s (not_shut h1 h2) hw hplace hc hn⟩,
    fun hx => ⟨_, hexec, handCommand_shut code c body effect s ((shut_iff _).mpr hx) dropped hdropped⟩⟩

end

/-! ### The commands by their checks (R160 to R164) -/

theorem exec_openRound (b : OpenBlock) (s : State) : exec (.openRound b) s = consoleCommand 0x20 (openRound b) s := rfl
theorem exec_closeRound (s : State) : exec .closeRound s = consoleCommand 0x21 closeRound s := rfl
theorem exec_verdictCommand (o e : Byte) (s : State) :
    exec (.verdictCommand o e) s = consoleCommand 0x22 (hostVerdict o e) s := rfl
theorem exec_revealCommand (k : Byte) (s : State) : exec (.revealCommand k) s = consoleCommand 0x23 (revealRound k) s := rfl
theorem exec_rollCall (w : Byte) (s : State) : exec (.rollCall w) s = consoleCommand 0x27 (rollCall w) s := rfl

/-- A VERDICT command carries RIGHT, WRONG or VOID (R162). -/
theorem hostOutcome_none (code : Byte) (h1 : code.toNat ≠ 1) (h2 : code.toNat ≠ 2) (h5 : code.toNat ≠ 5) :
    hostOutcome code = none := by
  unfold hostOutcome outcomeOfCode
  split <;> rename_i h <;> split at h <;> simp_all

theorem hostOutcome_some (code : Byte) (o : TurnOutcome) (h : outcomeOfCode code.toNat = some o)
    (ho : o = .right ∨ o = .wrong ∨ o = .void) : hostOutcome code = some o := by
  unfold hostOutcome
  rw [h]
  rcases ho with rfl | rfl | rfl <;> rfl

/-- The window of a ROLL, 5 at least; a byte is 255 at most (R191). -/
theorem clamp_byte (w : Byte) : clamp 5 255 w.toNat = max 5 w.toNat := by
  have hw := w.isLt
  simp only [clamp]
  omega

/-- A VERDICT command whose outcome is one it may carry: its refusal, or the hand-over (R162). -/
theorem hostVerdict_refused (outcome expected : Byte) (s : State) (o : TurnOutcome) (rc : ReplyCode)
    (ho : hostOutcome outcome = some o) (h : verdictRefusal expected s = some rc) :
    hostVerdict outcome expected s = answer 0x22 rc [] s := by
  unfold hostVerdict
  rw [ho, h]

theorem hostVerdict_handed (outcome expected : Byte) (s : State) (o : TurnOutcome) (team : Nat)
    (ho : hostOutcome outcome = some o) (h : verdictRefusal expected s = none) (hteam : s.rng.answering = some team) :
    let c := Content.verdict (byteOf s.rng.turn) (byteOf team) o none
    hostVerdict outcome expected s = handCommand 0x22 c [] (hostVerdictHanded (handAnswer c s) s.rng.turn) s := by
  unfold hostVerdict
  rw [ho, h, hteam]
  rfl

/-- Settles O59: each command's checks in their order, then the three answers of its hand-over. -/
theorem consoleHandsOver : Obligations.ConsoleHandsOver := by
  intro s hs hrole hstart hands refuses next n id
  have hc : consoleStation s = true := (consoleStation_iff s).mpr ⟨hrole, hstart⟩
  have hw : s.suu.startUp.atWork = true := by simpa [atWork_eq] using hstart
  have hplace : ∀ p, Role.hasPlace .console p = true → s.suu.identity.role.hasPlace p = true :=
    fun p hp => by rwa [hrole]
  have hnext : ∀ (i : Instr) (code : Byte) (f : State → State) (u : State), exec i s = consoleCommand code f s → f s = u →
      exec i s = .next (refresh u) := fun i code f u hi hf => by rw [hi, consoleCommand_next code f s hs hc, hf]
  have hrefuse : ∀ (i : Instr) (code : Byte) (rc : ReplyCode) (f : State → State), exec i s = consoleCommand code f s →
      f s = answer code rc [] s → refuses i code rc := fun i code rc f hi hf => by
    simp only [refuses]
    rw [hi]
    exact consoleCommand_refused code rc f s hs hc hf
  refine ⟨fun block => ⟨fun hp => ?_, fun h1 h2 => ?_⟩, fun hp => ?_, fun hp => ?_, fun key => ⟨fun hk => ?_, fun hk hp => ?_,
    fun hk hp => ?_⟩, fun outcome expected => ⟨fun h1 h2 h5 => ?_, fun o ho hhost => ?_⟩, fun window => ⟨fun hr => ?_,
    fun hr => ?_⟩⟩
  · exact handCommand_hands 0x20 _ _ (fun t => t.withCnf { t.cnf with lastRound := n }) s _ _ _ _
      (hnext _ _ _ _ (exec_openRound block s) (if_pos hp)) hw (hplace .open_ rfl) (by simp [Content.place])
      (fun _ _ => rfl) (fun _ => rfl)
  · exact hrefuse _ _ _ _ (exec_openRound block s) (if_neg (not_or.mpr ⟨h1, h2⟩))
  · have hphase : s.rng.phase = .reading ∨ s.rng.phase.claiming = true := by
      rcases hp with hp | hp | hp | hp <;> simp [hp, Phase.claiming]
    exact handCommand_hands 0x21 _ _ _ s _ _ _ _ (hnext _ _ _ _ (exec_closeRound s) (if_pos hphase)) hw (hplace .close rfl)
      (by simp [Content.place]) (fun _ _ => rfl) (fun _ => rfl)
  · have hphase : ¬(s.rng.phase = .reading ∨ s.rng.phase.claiming = true) := by
      rcases hp with hp | hp | hp <;> simp [hp, Phase.claiming]
    exact hrefuse _ _ _ _ (exec_closeRound s) (if_neg hphase)
  · exact hrefuse _ _ _ _ (exec_revealCommand key s) (if_pos hk)
  · exact handCommand_hands 0x23 _ _ _ s _ _ _ _
      (hnext _ _ _ _ (exec_revealCommand key s) ((if_neg (Nat.not_lt.mpr hk)).trans (if_pos hp))) hw (hplace .reveal rfl)
      (by simp [Content.place]) (fun _ _ => rfl) (fun _ => rfl)
  · exact hrefuse _ _ _ _ (exec_revealCommand key s) ((if_neg (Nat.not_lt.mpr hk)).trans (if_neg hp))
  · refine hrefuse _ _ _ _ (exec_verdictCommand outcome expected s) ?_
    unfold hostVerdict
    rw [hostOutcome_none outcome h1 h2 h5]
  · have hout := hostOutcome_some outcome o ho hhost
    have hlate : ∀ rc, verdictRefusal expected s = some rc → refuses (.verdictCommand outcome expected) 0x22 rc :=
      fun rc hv => hrefuse _ _ _ _ (exec_verdictCommand outcome expected s)
        (hostVerdict_refused outcome expected s o rc hout hv)
    refine ⟨fun hl => hlate _ ?_, fun he h1 h2 => hlate _ ?_, fun he h1 h2 => hlate _ ?_, fun team he h1 h2 h3 => ?_⟩
    · unfold verdictRefusal
      split
      · rfl
      next he => exact if_pos (hl.resolve_left he)
    · exact (if_neg he).trans ((if_neg h1).trans (if_pos h2))
    · have hphase : s.rng.phase ≠ .held := by simp [h1]
      have hpending : s.cnf.verdictPending.isSome = true := Option.ne_none_iff_isSome.mp h2
      exact (if_neg he).trans ((if_neg hphase).trans ((if_neg (not_not.mpr h1)).trans (if_pos hpending)))
    · have hphase : s.rng.phase ≠ .held := by simp [h1]
      have hnone : verdictRefusal expected s = none :=
        (if_neg he).trans ((if_neg hphase).trans ((if_neg (not_not.mpr h1)).trans (if_neg (by simp [h2]))))
      exact handCommand_hands 0x22 (.verdict (byteOf s.rng.turn) (byteOf team) o none) []
        (hostVerdictHanded (handAnswer (.verdict (byteOf s.rng.turn) (byteOf team) o none) s) s.rng.turn) s _ _ _ _
        (hnext _ _ _ _ (exec_verdictCommand outcome expected s)
          (hostVerdict_handed outcome expected s o team hout hnone h3)) hw
        (hplace .verdict rfl) (by simp [Content.place]) (fun ha _ => by rw [ha]; rfl) (fun ha => by rw [ha]; rfl)
  · exact hrefuse _ _ _ _ (exec_rollCall window s) (if_pos hr)
  · refine handCommand_hands 0x27 _ _ (fun t => t.withCnf { t.cnf with lastRollId := id }) s _ _ _ _
      (hnext _ _ _ _ (exec_rollCall window s) ?_) hw (hplace .roll rfl) (by simp [Content.place])
      (fun _ _ => rfl) (fun _ => rfl)
    rw [← clamp_byte]
    exact if_neg (by simp [hr])

end Sys2Proof.Machine

namespace Sys2Proof.Machine

open Sys2Proof.Safety

/-! ### Requests for a page (R36, R170, R173) -/

/-- What a page's place holds: nothing, or a frame and whether it is in attempt. -/
def pageState (p : Fin 4) (s : State) : Option Bool := (frameAt (.tally p) s.lcu.queue).map QFrame.inAttempt

/-- A request's outcome, by the transmitter and the place (R170). -/
theorem pageOutcome_code (p : Fin 4) (s : State) (hc : consoleStation s = true) :
    (pageOutcome p s).code =
      if s.lcu.tx = .halted ∨ s.lcu.tx = .muted then 3
      else match frameAt (.tally p) s.lcu.queue with
        | none => 0
        | some f => if f.inAttempt then 2 else 1 := by
  obtain ⟨hrole, hstart⟩ := (consoleStation_iff s).mp hc
  have hw : s.suu.startUp.atWork = true := by simpa [atWork_eq] using hstart
  have hplace : s.suu.identity.role.hasPlace (.tally p) = true := by rw [hrole]; rfl
  unfold pageOutcome
  by_cases hx : s.lcu.tx.shut = true
  · rw [if_pos ((shut_iff _).mp hx), (handOver_shut _ .cnf s hx).1]
    rfl
  · rw [if_neg (mt (shut_iff _).mpr hx)]
    have hx' : s.lcu.tx.shut = false := by simpa using hx
    cases hf : frameAt (.tally p) s.lcu.queue with
    | none =>
      rw [handAnswer_queued (.tally p none) s hx' hw hplace hf]
      rfl
    | some f =>
      rw [handAnswer_occupied (.tally p none) s f hx' hw hplace hf, if_neg fun h => absurd h.1 (by simp [Content.place])]
      cases hi : f.inAttempt <;> simp [hi, PageOutcome.code]

theorem pageOutcome_queued (p : Fin 4) (s : State) (h : pageOutcome p s = .queued) :
    handAnswer (.tally p none) s = .queued := by
  have hchoice : (Content.tally p none).place ≠ .choice := by simp [Content.place]
  unfold pageOutcome at h
  rcases handAnswer_cases (.tally p none) s with ⟨ha, -⟩ | ⟨-, ha | ⟨-, -, ⟨ha, -⟩ | ⟨-, hp⟩ | ⟨b, ha⟩⟩⟩
  · rw [ha] at h
    cases h
  · rw [ha] at h
    cases h
  · exact ha
  · exact absurd hp hchoice
  · rw [ha] at h
    cases b <;> cases h

/-- A request changes queue, transmitter and dirty marks alone. -/
theorem requestPage_writes (p : Fin 4) (s : State) :
    requestPage p s = (s.withLcu (requestPage p s).lcu).withCnf (requestPage p s).cnf := by
  unfold requestPage
  cases h : pageOutcome p s with
  | queued =>
    obtain ⟨-, l, heq⟩ := handOver_queued (.tally p none) .cnf s (pageOutcome_queued p s h)
    dsimp only
    rw [heq]
    rfl
  | waiting => rfl
  | dirty => rfl
  | notHanded => rfl

/-- A request as `AsksPage` has it (R170). -/
theorem requestPage_asks (p : Fin 4) (s : State) (hc : consoleStation s = true) :
    AsksPage p (pageOutcome p s).code s (requestPage p s).lcu (requestPage p s).cnf := by
  refine ⟨pageOutcome_code p s hc, ?_⟩
  unfold requestPage
  cases h : pageOutcome p s with
  | queued =>
    obtain ⟨hq, l, heq⟩ := handOver_queued (.tally p none) .cnf s (pageOutcome_queued p s h)
    dsimp only
    rw [heq] at hq ⊢
    exact ⟨fun _ => hq, fun hn => absurd rfl hn, (if_neg (by decide)).symm⟩
  | waiting => exact ⟨fun hn => absurd hn (by decide), fun _ => rfl, (if_neg (by decide)).symm⟩
  | dirty => exact ⟨fun hn => absurd hn (by decide), fun _ => rfl, (if_pos rfl).symm⟩
  | notHanded => exact ⟨fun hn => absurd hn (by decide), fun _ => rfl, (if_neg (by decide)).symm⟩

end Sys2Proof.Machine

namespace Sys2Proof.Machine

open Sys2Proof.Safety

/-! ### One request after the other (R174) -/

theorem frameAt_cons (p : Place) (f : QFrame) (q : List QFrame) :
    frameAt p (f :: q) = if f.place = p then some f else frameAt p q := by
  by_cases h : f.place = p <;> simp [frameAt, h]

/-- A frame put in another place leaves this one. -/
theorem frameAt_insertFrame (p : Place) (f : QFrame) (q : List QFrame) (h : f.place ≠ p) :
    frameAt p (insertFrame f q) = frameAt p q := by
  induction q with
  | nil => rw [insertFrame, frameAt_cons, if_neg h]
  | cons g q ih =>
    unfold insertFrame
    split
    · rw [frameAt_cons, if_neg h]
    · rw [frameAt_cons, frameAt_cons, ih]

/-- A frame handed over has its place. -/
theorem frameAt_inserted (f : QFrame) (q : List QFrame) : frameAt f.place (insertFrame f q) ≠ none := fun h =>
  frameAt_none.mp h f ((mem_insertFrame f f q).mpr (.inl rfl)) rfl

/-- The queue's first frame begins its attempt, in whatever place it stands (R40). -/
theorem frameAt_offered (p : Place) (s : State) (q : List QFrame) :
    (frameAt p (offered s q)).map QFrame.inAttempt = (frameAt p q).map QFrame.inAttempt ∨
      (frameAt p (offered s q)).map QFrame.inAttempt = some true ∧ frameAt p q ≠ none := by
  cases q with
  | nil => exact .inl rfl
  | cons f q =>
    rw [offered, frameAt_cons, frameAt_cons]
    by_cases h : f.place = p
    · rw [if_pos h, if_pos (show (begun s f).place = p from h)]
      exact .inr ⟨rfl, by simp⟩
    · rw [if_neg h, if_neg (show (begun s f).place ≠ p from h)]
      exact .inl rfl

/-- A frame handed over leaves the transmitter open, and begins no attempt unless the idle line lets it (R36, R40). -/
theorem queued_lcu_cases {c : Content} {h : Hander} {s t : State} (hq : Queued c h s t) :
    t.lcu.tx.shut = s.lcu.tx.shut ∧
      (t.lcu.queue = insertFrame (fresh c h) s.lcu.queue ∨
        s.lif.idleSeen = true ∧ t.lcu.queue = offered s (insertFrame (fresh c h) s.lcu.queue)) := by
  unfold Queued at hq
  dsimp only at hq
  split at hq
  · rw [hq]
    exact ⟨rfl, .inl rfl⟩
  next htx =>
    have hopen : s.lcu.tx.shut = false := by
      rcases not_and_or.mp htx with hn | hn <;> rw [not_not.mp hn] <;> rfl
    rw [hopen]
    split at hq
    next hstarts =>
      rw [hq]
      exact ⟨rfl, .inr ⟨hstarts.2.1, rfl⟩⟩
    · rw [hq]
      exact ⟨rfl, .inl rfl⟩

theorem mem_insertNat (n m : Nat) (l : List Nat) : m ∈ insertNat n l ↔ m = n ∨ m ∈ l := by
  induction l with
  | nil => simp [insertNat]
  | cons x xs ih =>
    unfold insertNat
    split
    · simp
    · split
      next hx => subst hx; simp
      · simp only [List.mem_cons, ih]
        tauto

/-- What requests for other pages, and no other steps, leave of a page's place: what it holds stands, unless the idle line lets
its frame begin; the transmitter is as open or shut, no mark is lost. -/
structure PageKept (p : Fin 4) (s u : State) : Prop where
  suu : u.suu = s.suu
  lif : u.lif = s.lif
  shut : u.lcu.tx.shut = s.lcu.tx.shut
  dirty : ∀ n, n ∈ s.cnf.dirty → n ∈ u.cnf.dirty
  place : pageState p u = pageState p s ∨ s.lif.idleSeen = true ∧ pageState p s ≠ none ∧ pageState p u = some true

theorem PageKept.refl (p : Fin 4) (s : State) : PageKept p s s := ⟨rfl, rfl, rfl, fun _ h => h, .inl rfl⟩

theorem PageKept.trans {p : Fin 4} {s u v : State} (h : PageKept p s u) (k : PageKept p u v) : PageKept p s v := by
  refine ⟨k.suu.trans h.suu, k.lif.trans h.lif, k.shut.trans h.shut, fun n hn => k.dirty n (h.dirty n hn), ?_⟩
  rcases k.place with hk | ⟨hi, hn, hk⟩ <;> rcases h.place with hh | ⟨hi', hn', hh⟩
  · exact .inl (hk.trans hh)
  · exact .inr ⟨hi', hn', hk.trans hh⟩
  · exact .inr ⟨by rw [← h.lif]; exact hi, by rw [← hh]; exact hn, hk⟩
  · exact .inr ⟨hi', hn', hk⟩

/-- A request that hands nothing, to a shut transmitter. -/
theorem requestPage_shut (p : Fin 4) (s : State) (hx : s.lcu.tx.shut = true) : requestPage p s = s := by
  unfold requestPage pageOutcome
  rw [(handOver_shut (.tally p none) .cnf s hx).1]

/-- A request for a page leaves the places of the others. -/
theorem requestPage_kept (p r : Fin 4) (s : State) (h : p ≠ r) : PageKept r s (requestPage p s) := by
  have hplace : (fresh (.tally p none) .cnf).place ≠ .tally r := by simpa [fresh, Content.place] using h
  unfold requestPage
  cases ho : pageOutcome p s with
  | waiting => exact .refl r s
  | notHanded => exact .refl r s
  | dirty => exact ⟨rfl, rfl, rfl, fun n hn => (mem_insertNat _ _ _).mpr (.inr hn), .inl rfl⟩
  | queued =>
    obtain ⟨hq, l, heq⟩ := handOver_queued (.tally p none) .cnf s (pageOutcome_queued p s ho)
    dsimp only
    rw [heq] at hq ⊢
    obtain ⟨hshut, hqueue⟩ := queued_lcu_cases hq
    refine ⟨rfl, rfl, hshut, fun n hn => hn, ?_⟩
    unfold pageState
    rcases hqueue with hl | ⟨hi, hl⟩ <;> rw [hl]
    · rw [frameAt_insertFrame _ _ _ hplace]
      exact .inl rfl
    · have hoffered := frameAt_offered (.tally r) s (insertFrame (fresh (.tally p none) .cnf) s.lcu.queue)
      rw [frameAt_insertFrame _ _ _ hplace] at hoffered
      exact hoffered.imp id fun ho => ⟨hi, by simpa using ho.2, ho.1⟩

/-- The outcome by what the place holds. -/
theorem pageOutcome_open (p : Fin 4) (s : State) (hc : consoleStation s = true) (hx : s.lcu.tx.shut = false) :
    (pageState p s = none → (pageOutcome p s).code = 0) ∧ (pageState p s = some false → (pageOutcome p s).code = 1) ∧
      (pageState p s = some true → (pageOutcome p s).code = 2) := by
  have hcode := pageOutcome_code p s hc
  rw [if_neg (mt (shut_iff _).mpr (by simp [hx]))] at hcode
  unfold pageState
  cases hf : frameAt (.tally p) s.lcu.queue with
  | none =>
    rw [hf] at hcode
    exact ⟨fun _ => hcode, nofun, nofun⟩
  | some f =>
    rw [hf] at hcode
    refine ⟨nofun, fun h => ?_, fun h => ?_⟩
    · have hi : f.inAttempt = false := by simpa using h
      simpa [hi] using hcode
    · have hi : f.inAttempt = true := by simpa using h
      simpa [hi] using hcode

/-- The page's own request leaves a frame in its place, and a mark on one in attempt. -/
theorem requestPage_self (p : Fin 4) (s : State) (hc : consoleStation s = true) (hx : s.lcu.tx.shut = false) :
    pageState p (requestPage p s) ≠ none ∧ (pageState p s = some true → p.val ∈ (requestPage p s).cnf.dirty) := by
  obtain ⟨-, hqueued, hsame, hdirty⟩ := requestPage_asks p s hc
  obtain ⟨h0, h1, h2⟩ := pageOutcome_open p s hc hx
  cases hp : pageState p s with
  | none =>
    have hq := hqueued (h0 hp)
    refine ⟨?_, nofun⟩
    have hinserted :
        (frameAt (.tally p) (insertFrame (fresh (.tally p none) .cnf) s.lcu.queue)).map QFrame.inAttempt ≠ none :=
      fun hn => frameAt_inserted (fresh (.tally p none) .cnf) s.lcu.queue (Option.map_eq_none_iff.mp hn)
    rw [pageState]
    rcases (queued_lcu_cases hq).2 with hl | ⟨-, hl⟩ <;> dsimp only at hl <;> rw [hl]
    · exact hinserted
    · have hoffered := frameAt_offered (.tally p) s (insertFrame (fresh (.tally p none) .cnf) s.lcu.queue)
      rcases hoffered with ho | ⟨ho, -⟩ <;> rw [ho]
      · exact hinserted
      · nofun
  | some b =>
    have hstays : (requestPage p s).lcu = s.lcu := by
      cases b
      · exact hsame (by rw [h1 hp]; decide)
      · exact hsame (by rw [h2 hp]; decide)
    refine ⟨?_, fun hb => ?_⟩
    · rw [pageState, hstays]
      exact fun hn => by rw [pageState] at hp; rw [hn] at hp; cases hp
    · rw [hdirty, if_pos (h2 (hp.trans hb))]
      exact (mem_insertNat _ _ _).mpr (.inl rfl)

/-- What SEND_TALLY reports of one page, its request between those before and those after it (R174). -/
theorem page_reported (p : Fin 4) (s a t : State) (hc : consoleStation s = true) (ha : PageKept p s a)
    (ht : PageKept p (requestPage p a) t) (hx : s.lcu.tx.shut = false) :
    (frameAt (.tally p) s.lcu.queue = none → (pageOutcome p a).code = 0 ∧ frameAt (.tally p) t.lcu.queue ≠ none) ∧
    (∀ f, frameAt (.tally p) s.lcu.queue = some f → f.inAttempt = false → s.lif.idleSeen = false →
      (pageOutcome p a).code = 1) ∧
    (∀ f, frameAt (.tally p) s.lcu.queue = some f → f.inAttempt = true →
      (pageOutcome p a).code = 2 ∧ t.cnf.dirty.contains p.val = true) := by
  have hca : consoleStation a = true := by rw [consoleStation, ha.suu]; exact hc
  have hxa : a.lcu.tx.shut = false := ha.shut.trans hx
  obtain ⟨h0, h1, h2⟩ := pageOutcome_open p a hca hxa
  obtain ⟨hheld, hmarked⟩ := requestPage_self p a hca hxa
  refine ⟨fun hn => ?_, fun f hf hi hidle => ?_, fun f hf hi => ?_⟩
  · have hs : pageState p s = none := by rw [pageState, hn]; rfl
    have hpa : pageState p a = none := ha.place.elim (·.trans hs) fun h => absurd hs h.2.1
    refine ⟨h0 hpa, fun hnone => ?_⟩
    have hpt : pageState p t = none := by rw [pageState, hnone]; rfl
    rcases ht.place with h | ⟨-, -, h⟩
    · exact hheld (h.symm.trans hpt)
    · rw [hpt] at h; cases h
  · have hs : pageState p s = some false := by rw [pageState, hf, ← hi]; rfl
    exact h1 (ha.place.elim (·.trans hs) fun h => by rw [hidle] at h; cases h.1)
  · have hs : pageState p s = some true := by rw [pageState, hf, ← hi]; rfl
    have hpa : pageState p a = some true := ha.place.elim (·.trans hs) (·.2.2)
    exact ⟨h2 hpa, by simpa using ht.dirty _ (hmarked hpa)⟩

end Sys2Proof.Machine

namespace Sys2Proof.Machine

open Sys2Proof.Safety

/-! ### SET_TOTAL, ADJUST, SEND_TALLY and CLEAR_ROLL_REPORT (R164, R170 to R174) -/

/-- A total written into one record, as one record (R142, R171). -/
theorem writeTotal_eq (team : Nat) (v : Int) (s : State) (h : s.scu.records.length = 16) (h1 : 1 ≤ team) (h2 : team ≤ 16) :
    commitScores (s.scu.records.set (team - 1) { s.scu.team team with total := v }) s =
      (s.withScu ⟨ranked (s.scu.records.set (team - 1) { s.scu.team team with total := v })⟩).withCmp
        { s.cmp with flags := s.cmp.flags ||| raisedIf (v != (s.scu.team team).total) .scoreChanged } := by
  have hfig : (({ s.scu.team team with total := v } : TeamRec).figures != (s.scu.team team).figures) =
      (v != (s.scu.team team).total) := by
    rw [Bool.eq_iff_iff]
    simp [TeamRec.figures]
  rw [commitScores_eq, map_set_bne _ s h _ team h1 h2, hfig]

/-- The total that a reply reads back. -/
theorem written_total (team : Nat) (x : TeamRec) (records : List TeamRec) (h : records.length = 16) (h1 : 1 ≤ team)
    (h2 : team ≤ 16) : ((⟨ranked (records.set (team - 1) x)⟩ : Scu).team team).total = x.total := by
  have hi : team - 1 < records.length := by omega
  simp [Scu.team, ranked, List.getD, hi]

/-- What the port says of a request is what the request reads, whatever the port holds. -/
theorem asksPage_withCmp {p : Fin 4} {o : Byte} {s : State} {c : Cmp} {l : Lcu} {k : Cnf}
    (h : AsksPage p o (s.withCmp c) l k) :
    AsksPage p o s l k := by
  unfold AsksPage at h ⊢
  obtain ⟨ho, hq, hl, hk⟩ := h
  refine ⟨ho, fun h0 => ?_, hl, hk⟩
  have hqueued := hq h0
  unfold Queued at hqueued ⊢
  exact hqueued

/-- A correction: the total written, its page asked for, both in the reply (R171, R172). -/
theorem correct_writes (code : Byte) (team : Byte) (v : Int) (body : List Byte) (s : State) (hc : consoleStation s = true)
    (h : s.scu.records.length = 16) (h1 : 1 ≤ team.toNat) (h2 : team.toNat ≤ 16) :
    let written := ranked (s.scu.records.set (team.toNat - 1) { s.scu.team team.toNat with total := v })
    let page : Fin 4 := Fin.ofNat 4 ((team.toNat - 1) / 4)
    let outcome : Byte :=
      if s.lcu.tx = .halted ∨ s.lcu.tx = .muted then 3
      else match frameAt (.tally page) s.lcu.queue with
        | none => 0
        | some f => if f.inAttempt then 2 else 1
    let t := refresh (correct code team.toNat body
      (commitScores (s.scu.records.set (team.toNat - 1) { s.scu.team team.toNat with total := v }) s))
    t.scu.records = written ∧ AsksPage page outcome { s with scu := ⟨written⟩ } t.lcu t.cnf ∧
      Replied code .ok (body ++ [outcome]) s t ∧
      StepFrame [.cmp, .free, .scu, .lcu, .cnf] (raisedIf (v != (s.scu.team team.toNat).total) .scoreChanged) s t := by
  intro written page outcome t
  let m : State := (s.withScu ⟨written⟩).withCmp
    { s.cmp with flags := s.cmp.flags ||| raisedIf (v != (s.scu.team team.toNat).total) .scoreChanged }
  have hm : consoleStation m = true := hc
  have ho : (pageOutcome page m).code = outcome := pageOutcome_code page m hm
  have hasks := requestPage_asks page m hm
  have hstate : t = refresh (answer code .ok (body ++ [outcome])
      ((m.withLcu (requestPage page m).lcu).withCnf (requestPage page m).cnf)) := by
    simp only [t]
    rw [writeTotal_eq _ _ _ h h1 h2, ← requestPage_writes, ← ho]
    rfl
  rw [ho] at hasks
  rw [hstate]
  refine ⟨rfl, asksPage_withCmp hasks, answer_raised_replied _ _ _ _ _ _ rfl, ?_⟩
  exact answer_raised_stepFrame _ _ _ _ s _ _ (by simp) (by simp)
    (fun b hb h1 h2 => by cases b <;> simp_all [Block.same, m]) rfl rfl rfl

/-- A working console's two corrections are one, of another total and with another reply (R171, R172). -/
theorem setTotal_eq (team : Byte) (h : Half) (s : State) (hlen : s.scu.records.length = 16) (h1 : 1 ≤ team.toNat)
    (h2 : team.toNat ≤ 16) :
    let v := saturate h.toInt
    setTotal team h s =
      correct 0x24 team.toNat (team :: bytes2 (BitVec.ofInt 16 v))
        (commitScores (s.scu.records.set (team.toNat - 1) { s.scu.team team.toNat with total := v }) s) := by
  intro v
  have hop : setTotalOp team.toNat h.toInt s =
      commitScores (s.scu.records.set (team.toNat - 1) { s.scu.team team.toNat with total := v }) s := by
    rw [setTotalOp, modifyTeam_eq s hlen _ _ h1 h2]
  unfold setTotal
  rw [if_pos (by simp [isTeam, h1, h2]), hop]
  dsimp only
  rw [commitScores_eq, State.withCmp_scu, State.withScu_scu, written_total _ _ _ hlen h1 h2]

theorem adjust_eq (team : Byte) (h : Half) (s : State) (hlen : s.scu.records.length = 16) (h1 : 1 ≤ team.toNat)
    (h2 : team.toNat ≤ 16) :
    let v := saturate ((s.scu.team team.toNat).total + clampDelta h.toInt)
    adjust team h s =
      correct 0x25 team.toNat
        (team :: (bytes2 (BitVec.ofInt 16 (s.scu.team team.toNat).total) ++ bytes2 (BitVec.ofInt 16 v)))
        (commitScores (s.scu.records.set (team.toNat - 1) { s.scu.team team.toNat with total := v }) s) := by
  intro v
  have hop : adjustOp team.toNat (clampDelta h.toInt) s =
      commitScores (s.scu.records.set (team.toNat - 1) { s.scu.team team.toNat with total := v }) s := by
    rw [adjustOp, modifyTeam_eq s hlen _ _ h1 h2]
  unfold adjust
  rw [if_pos (by simp [isTeam, h1, h2]), hop]
  dsimp only
  rw [commitScores_eq, State.withCmp_scu, State.withScu_scu, written_total _ _ _ hlen h1 h2]

/-- The states that the four requests of SEND_TALLY meet, in page order (R174). -/
def askedBefore (s : State) : Fin 4 → State
  | 0 => s
  | 1 => requestPage 0 s
  | 2 => requestPage 1 (requestPage 0 s)
  | 3 => requestPage 2 (requestPage 1 (requestPage 0 s))

theorem sendTally_eq (s : State) :
    sendTally s =
      answer 0x26 .ok
        [(pageOutcome 0 (askedBefore s 0)).code, (pageOutcome 1 (askedBefore s 1)).code,
          (pageOutcome 2 (askedBefore s 2)).code, (pageOutcome 3 (askedBefore s 3)).code] (requestAllPages s) := rfl

/-- Requests before and after a page's own are for other pages. -/
theorem askedBefore_kept (s : State) (p : Fin 4) :
    PageKept p s (askedBefore s p) ∧ PageKept p (requestPage p (askedBefore s p)) (requestAllPages s) := by
  have kept : ∀ (q : Fin 4) (u : State), q ≠ p → PageKept p u (requestPage q u) := fun q u h => requestPage_kept q p u h
  match p with
  | 0 => exact ⟨.refl 0 s, ((kept 1 _ (by decide)).trans (kept 2 _ (by decide))).trans (kept 3 _ (by decide))⟩
  | 1 => exact ⟨kept 0 _ (by decide), (kept 2 _ (by decide)).trans (kept 3 _ (by decide))⟩
  | 2 => exact ⟨(kept 0 _ (by decide)).trans (kept 1 _ (by decide)), kept 3 _ (by decide)⟩
  | 3 => exact ⟨((kept 0 _ (by decide)).trans (kept 1 _ (by decide))).trans (kept 2 _ (by decide)), .refl 3 _⟩

/-- The requests so far have changed queue, transmitter and dirty marks alone. -/
theorem requestPage_onlyAsked (p : Fin 4) (s u : State) (h : u = (s.withLcu u.lcu).withCnf u.cnf) :
    requestPage p u = (s.withLcu (requestPage p u).lcu).withCnf (requestPage p u).cnf := by
  refine (requestPage_writes p u).trans ?_
  generalize (requestPage p u).lcu = l, (requestPage p u).cnf = k
  rw [h]
  rfl

theorem askedBefore_onlyAsked (s : State) (p : Fin 4) :
    askedBefore s p = (s.withLcu (askedBefore s p).lcu).withCnf (askedBefore s p).cnf := by
  have h1 := requestPage_onlyAsked 0 s s rfl
  have h2 := requestPage_onlyAsked 1 s _ h1
  match p with
  | 0 => rfl
  | 1 => exact h1
  | 2 => exact h2
  | 3 => exact requestPage_onlyAsked 2 s _ h2

theorem exec_setTotal (b : Byte) (h : Half) (s : State) : exec (.setTotal b h) s = consoleCommand 0x24 (setTotal b h) s := rfl
theorem exec_adjust (b : Byte) (h : Half) (s : State) : exec (.adjust b h) s = consoleCommand 0x25 (adjust b h) s := rfl
/-- CLEAR_ROLL_REPORT at a working console (R164). -/
def clearReport (s : State) : State :=
  answer 0x28 .ok [] (s.withCnf { s.cnf with report := { s.cnf.report with valid := false } })

theorem exec_clearRollReport (s : State) : exec .clearRollReport s = consoleCommand 0x28 clearReport s := rfl
theorem exec_sendTally (s : State) : exec .sendTally s = consoleCommand 0x26 sendTally s := rfl

theorem outcome_at (o : Fin 4 → Byte) (p : Fin 4) : [o 0, o 1, o 2, o 3][p.val]? = some (o p) := by
  match p with
  | 0 | 1 | 2 | 3 => rfl

/-- A shut transmitter is handed nothing, four times. -/
theorem askedBefore_shut (s : State) (p : Fin 4) (hx : s.lcu.tx.shut = true) : askedBefore s p = s := by
  match p with
  | 0 => rfl
  | 1 | 2 | 3 => simp only [askedBefore, requestPage_shut _ s hx]

theorem requestAllPages_shut (s : State) (hx : s.lcu.tx.shut = true) : requestAllPages s = s := by
  simp only [requestAllPages, requestPage_shut _ s hx]

/-- SEND_TALLY at a working console: four requests, each as the one before left queue and transmitter (R174). -/
theorem sendTally_asks (s : State) (hc : consoleStation s = true) :
    let o := fun p => (pageOutcome p (askedBefore s p)).code
    ∀ p, AsksPage p (o p) { s with lcu := (askedBefore s p).lcu, cnf := (askedBefore s p).cnf }
      (requestPage p (askedBefore s p)).lcu (requestPage p (askedBefore s p)).cnf := by
  intro o p
  have hasked : askedBefore s p = { s with lcu := (askedBefore s p).lcu, cnf := (askedBefore s p).cnf } :=
    askedBefore_onlyAsked s p
  rw [← hasked]
  exact requestPage_asks p _ (by rw [consoleStation, (askedBefore_kept s p).1.suu]; exact hc)

/-- Settles O60: the wrong role, the written total with its page, and the four pages one after the other. -/
theorem consoleScores : Obligations.ConsoleScores := by
  intro s hs hsc
  refine ⟨fun helse block b c h ic hic => ?_, fun hrole hstart => ?_⟩
  · have hc : ¬consoleStation s = true := by
      rw [consoleStation_iff]
      rintro ⟨hr, hst⟩
      rcases helse with h1 | h1 | h1
      · exact h1 hr
      · rcases hst with h2 | h2 <;> simp [h1] at h2
      · rcases hst with h2 | h2 <;> simp [h1] at h2
    have hwrong : ∀ i code f, exec i s = consoleCommand code f s →
        ∃ t, exec i s = .next t ∧ OnlyReplied code .wrongRole [] s t := fun i code f hi => by
      rw [hi]
      exact consoleCommand_wrongRole code f s hs hc
    simp only [List.mem_cons, List.not_mem_nil, or_false] at hic
    rcases hic with rfl | rfl | rfl | rfl | rfl | rfl | rfl | rfl | rfl
    · exact hwrong _ _ _ (exec_openRound block s)
    · exact hwrong _ _ _ (exec_closeRound s)
    · exact hwrong _ _ _ (exec_verdictCommand b c s)
    · exact hwrong _ _ _ (exec_revealCommand b s)
    · exact hwrong _ _ _ (exec_setTotal b h s)
    · exact hwrong _ _ _ (exec_adjust b h s)
    · exact hwrong _ _ _ (exec_sendTally s)
    · exact hwrong _ _ _ (exec_rollCall b s)
    · exact hwrong _ _ _ (exec_clearRollReport s)
  have hc : consoleStation s = true := (consoleStation_iff s).mpr ⟨hrole, hstart⟩
  have hnext : ∀ i code f, exec i s = consoleCommand code f s → exec i s = .next (refresh (f s)) :=
    fun i code f hi => hi.trans (consoleCommand_next code f s hs hc)
  refine ⟨⟨_, hnext _ _ _ (exec_clearRollReport s), answer_replied _ _ _ _ _ rfl, rfl, ?_⟩, fun team hteam h => ⟨?_, ?_⟩,
    fun team h h1 h2 => ?_, ?_⟩
  · exact answer_stepFrame _ _ _ _ s _ (by simp) (by simp)
        (fun b hb h1 h2 => by cases b <;> simp_all [Block.same]) rfl rfl rfl
  · rw [exec_setTotal]
    exact consoleCommand_refused _ _ _ s hs hc (if_neg (by simp [isTeam]; omega))
  · rw [exec_adjust]
    exact consoleCommand_refused _ _ _ s hs hc (if_neg (by simp [isTeam]; omega))
  · have hset := hnext _ _ _ (exec_setTotal team h s)
    have hadjust := hnext _ _ _ (exec_adjust team h s)
    rw [setTotal_eq team h s hsc.1 h1 h2] at hset
    rw [adjust_eq team h s hsc.1 h1 h2] at hadjust
    exact ⟨⟨_, hset, correct_writes 0x24 team _ _ s hc hsc.1 h1 h2⟩, _, hadjust,
      correct_writes 0x25 team _ _ s hc hsc.1 h1 h2⟩
  · have hasks := sendTally_asks s hc
    have hexec := hnext _ _ _ (exec_sendTally s)
    rw [sendTally_eq] at hexec
    obtain ⟨l, k, hlast⟩ : ∃ l k, requestAllPages s = (s.withLcu l).withCnf k :=
      ⟨_, _, requestPage_onlyAsked 3 s _ (askedBefore_onlyAsked s 3)⟩
    refine ⟨_, _, hexec, answer_replied _ _ _ _ _ ?_, ⟨(askedBefore s 1).lcu, (askedBefore s 2).lcu, (askedBefore s 3).lcu,
      (askedBefore s 1).cnf, (askedBefore s 2).cnf, (askedBefore s 3).cnf, _, _, _, _, rfl, hasks 0, hasks 1, hasks 2, ?_⟩,
      fun p => ⟨fun hx => ?_, fun hx1 hx2 => ?_⟩, ?_⟩
    · rw [hlast]
      rfl
    · rw [refresh_lcu, refresh_cnf]
      exact hasks 3
    · have hshut := (shut_iff _).mpr hx
      rw [outcome_at (fun p => (pageOutcome p (askedBefore s p)).code), askedBefore_shut s p hshut, pageOutcome_code p s hc,
        if_pos hx, refresh_lcu, requestAllPages_shut s hshut]
      exact ⟨rfl, rfl⟩
    · obtain ⟨hbefore, hafter⟩ := askedBefore_kept s p
      rw [outcome_at (fun p => (pageOutcome p (askedBefore s p)).code), refresh_lcu, refresh_cnf]
      obtain ⟨hnone, hwaits, hattempt⟩ := page_reported p s _ _ hc hbefore hafter (not_shut hx1 hx2)
      exact ⟨fun hn => (hnone hn).imp (congrArg some) id, fun f hf hi hidle => congrArg some (hwaits f hf hi hidle),
        fun f hf hi => (hattempt f hf hi).imp (congrArg some) id⟩
    · rw [hlast]
      exact answer_stepFrame _ _ _ _ s _ (by simp) (by simp)
        (fun b hb h1 h2 => by cases b <;> simp_all [Block.same]) rfl rfl rfl

end Sys2Proof.Machine

namespace Sys2Proof.Machine

open Sys2Proof.Safety

/-! ### The round clock's rows (R55, R57, R80, R81) -/

theorem claiming_iff (p : Phase) : p.claiming = true ↔ p = .live ∨ p = .turn ∨ p = .held := by
  cases p <;> simp [Phase.claiming]

/-- The round clock alone written: nothing else changes but the outputs. -/
theorem withRck_stepFrame (k : Rck) (s : State) : StepFrame [.rck] 0 s (refresh (s.withRck k)) := by
  refine stepFrame_of _ 0 s _ (fun b hb h1 h2 => ?_) (fun _ => rfl) (fun _ => rfl) BitVec.or_zero.symm rfl
  cases b <;> simp_all [Block.same]

/-- Clock and round context written in a sound state: what follows at once, with its flags alone (R84, R92, R93). -/
theorem round_follows (k : Rck) (r : Rng) (s : State) (hq : QueueSound s) :
    let m := (s.withRck k).withRng r
    Follows m (refresh (advance m)) ∧ StepFrame roundBlocks (followFlags m) s (refresh (advance m)) := by
  intro m
  obtain ⟨hsorted, hwaits⟩ := withdrawable s hq
  have hleads : Leads roundBlocks 0 s m := by
    refine ⟨hsorted, hwaits, fun _ => id, fun b hb h1 h2 => ?_, rfl, BitVec.or_zero.symm ▸ rfl, rfl⟩
    cases b <;> simp_all [Block.same, m]
  simpa using hleads.follows (n := m) ⟨rfl, rfl, rfl, rfl, rfl⟩

/-- Saturation of a round that can be closed: saturated and closed, a READING round LIVE, and what follows (R57, R81). -/
theorem saturateClock_closable (s : State) (h : s.rng.phase.closable = true) :
    saturateClock s =
      advance
        ((s.withRck { s.rck with running := false }).withRng
          { s.rng with
            saturated := true, closed := true, phase := if s.rng.phase = .reading then .live else s.rng.phase }) := by
  unfold saturateClock
  dsimp only
  rw [if_pos h]
  by_cases hr : s.rng.phase = .reading
  · rw [if_pos hr, if_pos hr]
    rfl
  · rw [if_neg hr, if_neg hr]

/-- Settles O48: the tick and a saturation between rounds write the clock alone, every other row is what follows from the
round context that it writes (`round_follows`). -/
theorem roundClockRows : Obligations.RoundClockRows := by
  intro s
  refine ⟨fun hrun hcount => ?_, fun hq hphase hdue => ?_, fun hq hphase hopen hdue => ?_, fun hq hrun hcount => ?_⟩
  · refine ⟨_, when_occurs tick s (by simp [hrun, hcount, Config.clockMax]), ?_, withRck_stepFrame _ s⟩
    simp [tick, hrun]
  · have harm : armDue s = true := by simpa [armDue, hphase] using hdue
    refine ⟨_, when_occurs reachArm s harm, ?_⟩
    rw [reachArm, if_pos harm]
    exact round_follows s.rck _ s hq
  · have hwindow : windowDue s = true := by simp [windowDue, (claiming_iff _).mpr hphase, hopen, hdue]
    exact ⟨_, when_occurs endWindow s hwindow, round_follows s.rck _ s hq⟩
  · have hsat := when_occurs saturateClock s (by simp [hrun, hcount, Config.clockMax] :
      (s.rck.running && decide (s.rck.count = Config.clockMax)) = true)
    refine ⟨fun hphase => ⟨_, hsat, ?_⟩, fun hu he => ⟨_, hsat, ?_⟩⟩
    · have hidle : saturateClock s = s.withRck { s.rck with running := false } := by
        have hn : ¬s.rng.phase.closable = true := by
          rw [closable_iff]
          rintro ⟨hu, he⟩
          exact hphase.elim hu he
        exact if_neg hn
      rw [hidle]
      exact ⟨by simp [hcount], withRck_stepFrame _ s⟩
    · rw [saturateClock_closable s ((closable_iff _).mpr ⟨hu, he⟩)]
      exact round_follows _ _ s hq

end Sys2Proof.Machine

namespace Sys2Proof.Machine

open Sys2Proof.Safety

/-! ### BUZZ presses (R58, R63, R64, R67) -/

theorem ownTeamAnswers_iff (s : State) :
    ownTeamAnswers s = true ↔
      (s.rng.phase = .turn ∨ s.rng.phase = .held) ∧ s.rng.answering = some s.suu.identity.team := by
  simp [ownTeamAnswers]

theorem ownEntry_none_iff (s : State) :
    ownEntry s = none ↔ ∀ e ∈ s.clt.entries, e.team ≠ s.suu.identity.team := by
  simp [ownEntry, entryOf]

/-- The tests of a BUZZ press, spelled out (R64). -/
theorem claimTests_iff (time : Nat) (s : State) :
    claimTests time s = true ↔
      s.icu.record.jumpLockEnd ≤ time ∧ s.icu.record.ownClaim ≠ .pending ∧ s.icu.record.ownClaim ≠ .taken ∧
        (∀ e ∈ s.clt.entries, e.team ≠ s.suu.identity.team) ∧
        (s.rng.phase = .live ∨ s.rng.phase = .turn ∨ s.rng.phase = .held) ∧ time < s.rng.closePoint := by
  simp [claimTests, ownEntry_none_iff, claiming_iff, and_assoc]

/-- The record once the hold of a BUZZ press has started: its pass turn the own team's turn in progress, if there is one (R67). -/
def heldRecord (s : State) : PressRecord :=
  { s.icu.record with
    passTurn :=
      if (s.rng.phase = .turn ∨ s.rng.phase = .held) ∧ s.rng.answering = some s.suu.identity.team then some s.rng.turn
      else none }

/-- The state in which an accepted BUZZ press is judged: PRESSED, its hold started (R59, R67). -/
def buzzHeld (time : Nat) (s : State) : State :=
  s.withIcu
    { s.icu with
      buzz := { s.icu.input .buzz with filter := .pressed (some time), timer := .off }
      hold := .running (s.suu.identity.passHold * 100000), record := heldRecord s }

theorem startHold_pressedAt (time : Nat) (s : State) : startHold (pressedAt .buzz time s) = buzzHeld time s := by
  have hpass := ownTeamAnswers_iff (pressedAt .buzz time s)
  unfold startHold
  simp only [hpass]
  rfl

/-- A BUZZ press at a judging station in a BUZZ round is judged (R61). -/
theorem acceptPress_buzz (time : Nat) (s : State) (hr : s.suu.identity.role = .team) (hj : s.suu.startUp = .joined)
    (hm : s.suu.muted = false) (hf : s.rng.format = .buzz) (hu : s.rng.phase ≠ .unsynced) :
    acceptPress .buzz time s = judgeBuzz time (pressedAt .buzz time s) := by
  have hjudged : judgesPresses s = true := (judgesPresses_iff s).mpr ⟨hr, hj, hm⟩
  have hp : (pressedAt .buzz time s).rng = s.rng := rfl
  change (if judgesPresses s then judge .buzz time (pressedAt .buzz time s) else pressedAt .buzz time s) = _
  rw [if_pos hjudged, judge, hp, if_neg hu, hf]
  rfl

/-- The judgement of a BUZZ press: a jump, a CLAIM, or its hold alone (R61, R63, R64, R67). -/
theorem judgeBuzz_eq (time : Nat) (s : State) :
    judgeBuzz time (pressedAt .buzz time s) =
      if s.rng.phase.judges = false then buzzHeld time s
      else if time < s.rng.armTicks then jump (buzzHeld time s)
      else if claimTests time s then queueClaim (time / s.rng.grain) (buzzHeld time s)
      else buzzHeld time s := by
  simp only [judgeBuzz, isJump, decide_eq_true_eq, startHold_pressedAt]
  rfl

/-- The CLAIM of a BUZZ press (R64). -/
abbrev claimOf (stamp : Nat) (s : State) : Content := .claim (BitVec.ofNat 24 stamp) (byteOf s.suu.identity.team)

theorem queueClaim_queued (stamp : Nat) (s : State) (h : handAnswer (claimOf stamp s) s = .queued) :
    queueClaim stamp s =
      handOver (claimOf stamp s) .icu (setRecord { s.icu.record with ownClaim := .pending, claimStamp := some stamp } s) := by
  unfold queueClaim
  dsimp only
  rw [h]

theorem queueClaim_already (stamp : Nat) (s : State) (b : Bool) (h : handAnswer (claimOf stamp s) s = .already b) :
    queueClaim stamp s = s := by
  unfold queueClaim
  dsimp only
  rw [h]

/-- A CLAIM dropped at once (R36, R64). -/
theorem queueClaim_dropped (stamp : Nat) (s : State) (hx : s.lcu.tx.shut = true) :
    queueClaim stamp s = claimDropped (raise .txDropped s) := by
  obtain ⟨ha, hh⟩ := handOver_shut (claimOf stamp s) .icu s hx
  unfold queueClaim
  dsimp only
  rw [ha]
  exact congrArg claimDropped hh

/-- A CLAIM handed over changes the press record alone of the input capture unit. -/
theorem queueClaim_icu (stamp : Nat) (s : State) : ∃ r, (queueClaim stamp s).icu = { s.icu with record := r } := by
  unfold queueClaim
  dsimp only
  split
  · exact ⟨_, by rw [handOver_icu]; rfl⟩
  · exact ⟨_, by simp only [claimDropped, reportDrop, setRecord, State.withPnl_icu, State.withIcu_icu, handOver_icu]; rfl⟩
  all_goals exact ⟨s.icu.record, rfl⟩

/-- Whatever a BUZZ press is judged to be, beside its hold it changes the press record alone of the input capture unit. -/
theorem judgeBuzz_icu (time : Nat) (s : State) : ∃ r, (judgeBuzz time s).icu = { (startHold s).icu with record := r } := by
  unfold judgeBuzz
  dsimp only
  split
  · exact ⟨_, rfl⟩
  split
  · exact ⟨_, rfl⟩
  split
  · exact queueClaim_icu _ _
  · exact ⟨_, rfl⟩

/-- The frame of a BUZZ press that leaves press record and line controller so. -/
theorem buzzHeld_stepFrame (changed : List Block) (r : PressRecord) (l : Lcu) (time : Nat) (s : State)
    (hi : .icu ∈ changed) (hl : .lcu ∉ changed → l = s.lcu) :
    StepFrame changed 0 s (refresh ((setRecord r (buzzHeld time s)).withLcu l)) :=
  icu_stepFrame changed s _ l hi hl

/-- The frame of a press whose CLAIM is dropped at once (R36, R64). -/
theorem dropped_stepFrame (i : Icu) (s : State) :
    StepFrame [.icu, .pnl] Event.txDropped.flag s (refresh (reportDrop (raise .txDropped (s.withIcu i)))) := by
  refine press_stepFrame _ _ s _ (by simp) (fun b hb h1 h2 h3 => ?_) (by simp) rfl rfl
  cases b <;> simp_all [Block.same]

/-- Settles O51: what the press and its hold leave is `buzzHeld`, then a jump, a CLAIM by the answer to its hand-over, or
nothing. -/
theorem buzzPressAccepted : Obligations.BuzzPressAccepted := by
  intro time s hf ht hr hj hm hfmt hu
  dsimp only
  have hjudge := judges_iff s.rng.phase hu
  have htests := claimTests_iff time s
  have hpress := judgeBuzz_eq time s
  have halone : StepFrame [.icu] 0 s (refresh (buzzHeld time s)) :=
    buzzHeld_stepFrame _ (heldRecord s) s.lcu time s (by simp) fun _ => rfl
  obtain ⟨r, hicu⟩ := judgeBuzz_icu time (pressedAt .buzz time s)
  obtain ⟨hset, hothers, -⟩ :=
    setInput_input s.icu .buzz { s.icu.input .buzz with filter := .pressed (some time), timer := .off } r
  have hclaim : ∀ {Q : Prop}, (s.rng.phase ≠ .closing ∧ s.rng.phase ≠ .ended) ∧
      ¬((s.rng.phase ≠ .closing ∧ s.rng.phase ≠ .ended) ∧ time < s.rng.armTicks) ∧ Q → (Q → claimTests time s = true) →
      judgeBuzz time (pressedAt .buzz time s) = queueClaim (time / s.rng.grain) (buzzHeld time s) := by
    intro Q h hq
    rw [hpress, if_neg (by simpa using hjudge.mpr h.1), if_neg fun hlt => h.2.1 ⟨h.1, hlt⟩, if_pos (hq h.2.2)]
  have hwork : s.suu.startUp.atWork = true := by rw [hj]; rfl
  have hplace : s.suu.identity.role.hasPlace .claim = true := by rw [hr]; rfl
  refine ⟨_, pressAccepted_next .buzz time s hf ht, ?_⟩
  rw [acceptPress_buzz time s hr hj hm hfmt hu]
  refine ⟨?_, fun e he => ?_, ?_, fun h => ?_, fun h1 h2 => ?_, fun h hh hm hn => ?_, fun h hx => ?_,
    fun h hh hm hn => ?_⟩
  · rw [refresh_icu, hicu]
    exact hset
  · rw [refresh_icu, hicu]
    exact hothers e he
  · rw [refresh_icu, hicu]
    rfl
  · rw [hpress, if_neg (by simpa using hjudge.mpr h.1), if_pos h.2]
    exact ⟨rfl, buzzHeld_stepFrame [.icu] (jump (buzzHeld time s)).icu.record s.lcu time s (by simp) fun _ => rfl⟩
  · have hnone : judgeBuzz time (pressedAt .buzz time s) = buzzHeld time s := by
      rw [hpress]
      cases hjd : s.rng.phase.judges
      · exact if_pos rfl
      · have hjumps : ¬time < s.rng.armTicks := fun hlt => h1 ⟨hjudge.mp hjd, hlt⟩
        rw [if_neg (by simp), if_neg hjumps, if_neg fun hc => h2 ⟨hjudge.mp hjd, h1, htests.mp hc⟩]
    rw [hnone]
    exact ⟨rfl, halone⟩
  · rw [hclaim h htests.mpr]
    have ha := handAnswer_queued (claimOf (time / s.rng.grain) (buzzHeld time s)) (buzzHeld time s) (not_shut hh hm) hwork
      hplace hn
    rw [queueClaim_queued _ _ ha]
    obtain ⟨hq, l, heq⟩ := handOver_queued (claimOf (time / s.rng.grain) (buzzHeld time s)) .icu
      (setRecord { (buzzHeld time s).icu.record with ownClaim := .pending, claimStamp := some (time / s.rng.grain) }
        (buzzHeld time s)) ha
    rw [heq] at hq ⊢
    exact ⟨rfl, hq, buzzHeld_stepFrame [.icu, .lcu] _ l time s (by simp) (by simp)⟩
  · rw [hclaim h htests.mpr, queueClaim_dropped _ (buzzHeld time s) ((shut_iff _).mpr hx)]
    exact ⟨rfl, by rw [refresh_flash]; rfl, dropped_stepFrame _ s⟩
  · rw [hclaim h htests.mpr]
    obtain ⟨f, hfa⟩ := Option.ne_none_iff_exists'.mp hn
    have ha := (handAnswer_occupied (claimOf (time / s.rng.grain) (buzzHeld time s)) (buzzHeld time s) f (not_shut hh hm)
      hwork hplace hfa).trans (if_neg (by simp [Content.place]))
    rw [queueClaim_already _ _ _ ha]
    exact ⟨rfl, halone⟩

end Sys2Proof.Machine

namespace Sys2Proof.Machine

open Sys2Proof.Safety

/-! ### The phase, untouched by queue and handers (R37 to R50) -/

@[simp] theorem verdictDropped_phase (b : Bool) (s : State) : (verdictDropped b s).rng.phase = s.rng.phase := by
  unfold verdictDropped
  (repeat' split) <;> simp

@[simp] theorem told_phase (x : Fate) (f : QFrame) (s : State) : (told x f s).rng.phase = s.rng.phase := by
  unfold told
  (repeat' split) <;> simp

@[simp] theorem resolve_phase (e : AttemptEnd) (s : State) : (resolve e s).rng.phase = s.rng.phase := by
  unfold resolve resolveAttempt leave
  (repeat' split) <;> simp

@[simp] theorem endAttempt_phase (e : AttemptEnd) (s : State) : (endAttempt e s).rng.phase = s.rng.phase := by
  simp [endAttempt]

@[simp] theorem withdraw_phase (p : Place) (s : State) : (withdraw p s).rng.phase = s.rng.phase := by
  unfold withdraw
  dsimp only
  (repeat' split) <;> simp

@[simp] theorem withdrawOwn_phase (s : State) : (withdrawOwn s).rng.phase = s.rng.phase := by simp [withdrawOwn]

@[simp] theorem foldDrop_phase (q : List QFrame) (s : State) : (q.foldl dropFrame s).rng.phase = s.rng.phase := by
  induction q generalizing s with
  | nil => rfl
  | cons f q ih => simp [ih, dropFrame]

@[simp] theorem emptyQueue_phase (s : State) : (emptyQueue s).rng.phase = s.rng.phase := by simp [emptyQueue]

@[simp] theorem enterHalted_phase (s : State) : (enterHalted s).rng.phase = s.rng.phase := by simp [enterHalted]

@[simp] theorem mute_phase (s : State) : (mute s).rng.phase = s.rng.phase := by
  unfold mute enterMuted
  (repeat' split) <;> simp

@[simp] theorem checkDuplicate_phase (own : Bool) (d : Nat) (s : State) :
    (checkDuplicate own d s).rng.phase = s.rng.phase := by
  unfold checkDuplicate
  split <;> simp

@[simp] theorem takenAtLine_phase (s : State) : (takenAtLine s).rng.phase = s.rng.phase := by
  unfold takenAtLine
  split <;> simp

@[simp] theorem reachIdle_phase (s : State) : (reachIdle s).rng.phase = s.rng.phase := by
  unfold reachIdle
  dsimp only
  (repeat' split) <;> simp

@[simp] theorem breakAttempt_phase (e : AttemptEnd) (s : State) : (breakAttempt e s).rng.phase = s.rng.phase := by
  simp [breakAttempt]

@[simp] theorem closeTurn_phase (t : Nat) (o : TurnOutcome) (s : State) : (closeTurn t o s).rng.phase = s.rng.phase := rfl

/-! ### No round begins, no clock moves (R55 to R57, R78, R95) -/

/-- What every step leaves of phase and round clock that is no reset, no OPEN taken and no tick of the clock: UNSYNCED and ENDED
stand, the clock keeps its count and does not start. -/
structure RoundKept (s t : State) : Prop where
  ended : s.rng.phase = .ended → t.rng.phase = .ended
  unsynced : s.rng.phase = .unsynced → t.rng.phase = .unsynced
  count : t.rck.count = s.rck.count
  running : t.rck.running = true → s.rck.running = true

/-- Phase and clock unchanged. -/
theorem RoundKept.of_same {s t : State} (hp : t.rng.phase = s.rng.phase) (hk : t.rck = s.rck) : RoundKept s t :=
  ⟨hp.trans, hp.trans, by rw [hk], by rw [hk]; exact id⟩

theorem RoundKept.refl (s : State) : RoundKept s s := .of_same rfl rfl

theorem RoundKept.trans {s t u : State} (h : RoundKept s t) (k : RoundKept t u) : RoundKept s u :=
  ⟨k.ended ∘ h.ended, k.unsynced ∘ h.unsynced, k.count.trans h.count, h.running ∘ k.running⟩

/-- A round under way may come to any phase. -/
theorem RoundKept.of_active {s t : State} (he : s.rng.phase ≠ .ended) (hu : s.rng.phase ≠ .unsynced) (hk : t.rck = s.rck) :
    RoundKept s t :=
  ⟨fun h => absurd h he, fun h => absurd h hu, by rw [hk], by rw [hk]; exact id⟩

/-- A round that is known may end: the clock is held (R95). -/
theorem enterEnded_roundKept (s : State) (hu : s.rng.phase ≠ .unsynced) : RoundKept s (enterEnded s) :=
  ⟨fun _ => by simp [enterEnded], fun h => absurd h hu, by simp [enterEnded], by simp [enterEnded]⟩

/-- What follows at an instant follows in LIVE alone (R84, R92, R93). -/
theorem advance_roundKept (s : State) : RoundKept s (advance s) := by
  unfold advance
  by_cases hl : s.rng.phase = .live
  · have hu : s.rng.phase ≠ .unsynced := by simp [hl]
    have he : s.rng.phase ≠ .ended := by simp [hl]
    split
    · exact .of_active he hu (setPhase_rck _ _)
    split
    · exact .of_active he hu (grant_rck s)
    split
    · exact enterEnded_roundKept s hu
    · exact .refl s
  · rw [if_neg (by simp [closingDue, hl]), if_neg (by simp [grantDue, hl]), if_neg (by simp [settleOutDue, hl])]
    exact .refl s

/-- A turn ends in a known round; ENDED stays (R87). -/
theorem phaseAfterTurn_roundKept (o : TurnOutcome) (s : State) (hu : s.rng.phase ≠ .unsynced) :
    RoundKept s (phaseAfterTurn o s) := by
  unfold phaseAfterTurn
  split
  · exact .refl s
  split
  · exact enterEnded_roundKept s hu
  · exact .of_active ‹_› hu (setPhase_rck _ _)

/-- The arm is reached in READING alone (R80). -/
theorem reachArm_roundKept (s : State) : RoundKept s (reachArm s) := by
  unfold reachArm
  split
  · rename_i h
    simp only [armDue, Bool.and_eq_true, beq_iff_eq] at h
    obtain ⟨hp, -⟩ := h
    exact (RoundKept.of_active (by simp [hp]) (by simp [hp]) (setPhase_rck _ _)).trans (advance_roundKept _)
  · exact .refl s

theorem endWindow_roundKept (s : State) : RoundKept s (endWindow s) :=
  RoundKept.trans (t := s.withRng { s.rng with closed := true }) (.of_same rfl rfl) (advance_roundKept _)

/-- Saturation holds the clock at its count (R57). -/
theorem saturateClock_roundKept (s : State) : RoundKept s (saturateClock s) := by
  have hstop : ∀ r : Rng, (s.rng.phase = .unsynced ∨ s.rng.phase = .ended → r.phase = s.rng.phase) →
      RoundKept s ((s.withRck { s.rck with running := false }).withRng r) :=
    fun r hr => ⟨fun h => (hr (.inr h)).trans h, fun h => (hr (.inl h)).trans h, rfl, by simp⟩
  by_cases hc : s.rng.phase.closable = true
  · obtain ⟨hu, he⟩ := (closable_iff _).mp hc
    rw [saturateClock_closable s hc]
    exact (hstop _ fun h => absurd h (by simp [hu, he])).trans (advance_roundKept _)
  · rw [saturateClock, if_neg hc]
    exact hstop s.rng fun _ => rfl

theorem answerExpiry_roundKept (s : State) (hp : s.rng.phase = .turn) : RoundKept s (answerExpiry s) := by
  unfold answerExpiry
  dsimp only
  split <;> exact .of_active (by simp [hp]) (by simp [hp]) (by simp)

/-! ### What the owners of a frame leave of them -/

theorem closeEffect_roundKept (round : Byte) (point : Triple) (s : State) : RoundKept s (closeEffect round point s) := by
  unfold closeEffect
  dsimp only
  split
  · rename_i h
    refine RoundKept.trans
      (t := s.withRng { s.rng with closePoint := min s.rng.closePoint point.toNat, closed := true }) (.of_same rfl rfl) ?_
    split
    · exact enterEnded_roundKept _ ((closable_iff _).mp h.2).1
    · exact advance_roundKept _
  · exact .refl s

/-- A VERDICT is handled in full in a known round alone (R89). -/
theorem verdictHandling_known {r : Rng} {round turn team code : Nat} {o : TurnOutcome}
    (h : verdictHandling r round turn team code = .full o) : r.phase ≠ .unsynced := by
  intro hu
  unfold verdictHandling at h
  split at h
  · cases h
  · rw [if_pos (.inl hu)] at h
    cases h

theorem verdictAtConsole_roundKept (own : Bool) (s : State) : RoundKept s (verdictAtConsole own s) := by
  unfold verdictAtConsole
  split <;> exact .of_same (by simp) (by simp)

theorem verdictEffect_roundKept (own : Bool) (round turn team outcome : Byte) (check : Half) (s : State) :
    RoundKept s (verdictEffect own round turn team outcome check s) := by
  unfold verdictEffect
  split
  · exact verdictAtConsole_roundKept own s
  · exact RoundKept.trans (.of_same (by simp) (by simp)) (verdictAtConsole_roundKept own _)
  · rename_i o h
    have hfull : RoundKept s (fullVerdict turn.toNat team.toNat o check.toInt s) :=
      RoundKept.trans (.of_same (by simp) (by simp))
        (phaseAfterTurn_roundKept o _ (by simpa using verdictHandling_known h))
    exact (hfull.trans (verdictAtConsole_roundKept own _)).trans (advance_roundKept _)

theorem passEffect_roundKept (round turn team : Byte) (s : State) : RoundKept s (passEffect round turn team s) := by
  unfold passEffect
  split
  · rename_i h
    have hu : s.rng.phase ≠ .unsynced := by
      intro hu
      simp [passEnds, hu] at h
    have hturn : RoundKept s (endTurnByPass team.toNat s) :=
      RoundKept.trans (.of_same (closeTurn_phase _ .pass s) (closeTurn_rck _ .pass s)) (phaseAfterTurn_roundKept .pass _ hu)
    have hgiven : ∀ x, RoundKept x (supersede turn.toNat x) := by
      intro x
      unfold supersede
      split <;> exact .of_same (by simp) (by simp)
    exact (hturn.trans (hgiven _)).trans (advance_roundKept _)
  · exact .refl s

theorem claimEffect_roundKept (desk : Desk) (round : Byte) (stamp : Triple) (team : Byte) (s : State) :
    RoundKept s (claimEffect desk round stamp team s) := by
  refine RoundKept.trans ?_ (advance_roundKept _)
  unfold claimAtDesk claimAtList
  (repeat' split) <;> exact .of_same (by simp) (by simp)

theorem choiceEffect_roundKept (desk : Desk) (round : Byte) (stamp : Triple) (key team : Byte) (s : State) :
    RoundKept s (choiceEffect desk round stamp key team s) := by
  unfold choiceEffect choiceAtDesk choiceAtTable
  (repeat' split) <;> exact .of_same (by simp) (by simp)

theorem tallyEffect_roundKept (desk : Desk) (page : Byte) (totals : List Half) (s : State) :
    RoundKept s (tallyEffect desk page totals s) := by
  unfold tallyEffect
  split <;> exact .of_same (by simp) (by simp)

/-- A REVEAL applies in CLOSING alone (R94). -/
theorem revealEffect_roundKept (round key : Byte) (s : State) : RoundKept s (revealEffect round key s) := by
  unfold revealEffect
  dsimp only
  split
  · rename_i h
    have hp : s.rng.phase = .closing := ((revealApplies_iff _ _ _).mp h).2.1
    have hends : ∀ x, x.rng.phase = s.rng.phase → x.rck = s.rck → RoundKept s (enterEnded x) := fun x hx hk =>
      (RoundKept.of_same hx hk).trans (enterEnded_roundKept x (by simp [hx, hp]))
    have hpages : ∀ x, RoundKept x (if consoleStation x then requestAllPages x else x) := by
      intro x
      split <;> exact .of_same (by simp) (by simp)
    refine RoundKept.trans (hends _ ?_ ?_) (hpages _) <;> split <;> simp
  · exact .refl s

theorem rollEffect_roundKept (id window : Byte) (s : State) : RoundKept s (rollEffect id window s) := by
  unfold rollEffect startPolling
  dsimp only
  (repeat' split) <;> exact .of_same (by simp) (by simp)

theorem presentEffect_roundKept (desk : Desk) (role team id flags : Byte) (s : State) :
    RoundKept s (presentEffect desk role team id flags s) := by
  unfold presentEffect addReply
  split <;> exact .of_same (by simp) (by simp)

theorem helloEffect_roundKept (desk : Desk) (role team : Byte) (tag : Half) (s : State) :
    RoundKept s (helloEffect desk role team tag s) := by
  unfold helloEffect
  dsimp only
  split <;> exact .of_same (by simp) (by simp)

/-! ### Presses, commands and takings as steps -/

theorem queueClaim_roundKept (stamp : Nat) (s : State) : RoundKept s (queueClaim stamp s) := by
  unfold queueClaim
  dsimp only
  split <;> exact .of_same (by simp) (by simp)

theorem queueChoice_roundKept (key stamp : Nat) (s : State) : RoundKept s (queueChoice key stamp s) := by
  unfold queueChoice
  dsimp only
  split <;> exact .of_same (by simp) (by simp)

theorem acceptPress_roundKept (d : DeskInput) (capture : Nat) (s : State) : RoundKept s (acceptPress d capture s) := by
  have hinput : ∀ i, RoundKept s (setInput d i s) := fun _ => .of_same rfl rfl
  have hjudge : ∀ x, RoundKept x (judge d capture x) := by
    intro x
    unfold judge judgeBuzz judgeKey
    dsimp only
    (repeat' split)
    any_goals exact .of_same rfl rfl
    · exact RoundKept.trans (t := startHold x) (.of_same rfl rfl) (queueClaim_roundKept _ _)
    · exact queueChoice_roundKept _ _ x
  unfold acceptPress
  dsimp only
  split
  · exact (hinput _).trans (hjudge _)
  · exact hinput _

theorem holdEnd_roundKept (s : State) : RoundKept s (holdEnd s) := by
  unfold holdEnd queuePass
  dsimp only
  (repeat' split) <;> exact .of_same (by simp [endHold]) (by simp [endHold])

theorem faultAtController_roundKept (s : State) : RoundKept s (faultAtController s) := by
  unfold faultAtController doubleFault enterRecovering
  dsimp only
  (repeat' split) <;> exact .of_same (by simp) (by simp)

/-- An answer leaves of phase and clock what u holds of them. -/
theorem answer_roundKept (code : Byte) (rc : ReplyCode) (body : List Byte) {s u : State} (h : RoundKept s u) :
    RoundKept s (answer code rc body u) := h.trans (.of_same (by simp) (by simp))

/-- A command that hands one frame leaves phase and clock alone where its effect does. -/
theorem handCommand_roundKept (code : Byte) (c : Content) (body : List Byte) (f : State → State) (s : State)
    (hf : ∀ x, RoundKept x (f x)) : RoundKept s (handCommand code c body f s) := by
  unfold handCommand
  split
  · exact answer_roundKept _ _ _ (.refl s)
  · have hover : RoundKept s (handOver c .cnf s) := .of_same (by simp) (by simp)
    exact answer_roundKept _ _ _ (hover.trans (hf _))

theorem when_roundKept {b : Bool} {f : State → State} {s t : State} (h : when b f s = .next t)
    (hf : b = true → RoundKept s (f s)) : RoundKept s t := by
  cases b with
  | false => rw [when_not_occurs f s rfl] at h; cases h; exact .refl s
  | true => rw [when_occurs f s rfl] at h; cases h; exact (hf rfl).trans (.of_same (by simp) (by simp))

/-- A taking leaves of phase and clock what its owners leave. -/
theorem takes_roundKept {f : Frame} {eff : State → State} {s t : State} (h : takes f eff s = .next t)
    (he : ∀ x, RoundKept x (eff x)) : RoundKept s t := by
  refine when_roundKept h fun _ => ?_
  have hm : RoundKept s (markHeard f.desk.toNat f.round.toNat (takenAtLine s)) := .of_same (by simp) (by simp)
  refine RoundKept.trans ?_ (.of_same (checkDuplicate_phase _ _ _) (checkDuplicate_rck _ _ _))
  split
  · exact hm.trans (he _)
  · exact hm

theorem command_roundKept {f : State → State} {s t : State} (h : command f s = .next t) (hf : RoundKept s (f s)) :
    RoundKept s t := when_roundKept h fun _ => hf

theorem consoleCommand_roundKept {code : Byte} {f : State → State} {s t : State}
    (h : consoleCommand code f s = .next t) (hf : RoundKept s (f s)) : RoundKept s t := by
  refine command_roundKept h ?_
  split
  · exact hf
  · exact .of_same (by simp) (by simp)

/-- Every command but the resets, an OPEN taken and the clock's tick leaves UNSYNCED and ENDED, and the clock's count; none
starts the clock. -/
theorem exec_roundKept (c : Instr) (s t : State) (hr : isReset c = false) (ho : isOpening c = false)
    (hc : c ≠ .roundClockTick) (h : exec c s = .next t) : RoundKept s t := by
  cases c with
  | powerOnReset | resetN | restart => cases hr
  | openTaken => cases ho
  | roundClockTick => exact absurd rfl hc
  | closeTaken desk round point => exact takes_roundKept h (closeEffect_roundKept round point)
  | verdictTaken desk round turn team outcome check =>
    exact takes_roundKept h (verdictEffect_roundKept _ round turn team outcome check)
  | passTaken desk round turn team => exact takes_roundKept h (passEffect_roundKept round turn team)
  | claimTaken desk round stamp team => exact takes_roundKept h (claimEffect_roundKept desk round stamp team)
  | choiceTaken desk round stamp key team => exact takes_roundKept h (choiceEffect_roundKept desk round stamp key team)
  | tallyTaken desk round page a b c d => exact takes_roundKept h (tallyEffect_roundKept desk page _)
  | revealTaken desk round key => exact takes_roundKept h (revealEffect_roundKept round key)
  | rollTaken desk round id window => exact takes_roundKept h (rollEffect_roundKept id window)
  | presentTaken desk round role team id flags =>
    exact takes_roundKept h (presentEffect_roundKept desk role team id flags)
  | helloTaken desk round role team tag => exact takes_roundKept h (helloEffect_roundKept desk role team tag)
  | armReached => exact when_roundKept h fun _ => reachArm_roundKept s
  | windowEnd => exact when_roundKept h fun _ => endWindow_roundKept s
  | roundClockSaturation => exact when_roundKept h fun _ => saturateClock_roundKept s
  | settleDeadline =>
    refine when_roundKept h fun hdue => ?_
    simp only [grantDue, Bool.and_eq_true, beq_iff_eq] at hdue
    obtain ⟨⟨⟨hp, -⟩, -⟩, -⟩ := hdue
    exact .of_active (by simp [hp]) (by simp [hp]) (grant_rck s)
  | settleOut =>
    refine when_roundKept h fun hdue => enterEnded_roundKept s ?_
    intro hu
    simp [settleOutDue, hu] at hdue
  | answerClockStep => exact when_roundKept h (f := answerStep) fun _ => .of_same rfl rfl
  | answerClockExpiry =>
    refine when_roundKept h fun hdue => ?_
    simp only [Bool.and_eq_true, beq_iff_eq] at hdue
    obtain ⟨⟨hp, -⟩, -⟩ := hdue
    exact answerExpiry_roundKept s hp
  | pressAccepted d => exact when_roundKept h fun _ => acceptPress_roundKept d _ s
  | releaseAccepted d =>
    refine when_roundKept h fun _ => ?_
    unfold acceptRelease
    dsimp only
    split <;> exact .of_same rfl rfl
  | passHoldEnd => exact when_roundKept h fun _ => holdEnd_roundKept s
  | loadingReadEnd =>
    obtain ⟨-, hk, hp, -⟩ := endLoading_frame s
    exact when_roundKept h fun _ => .of_same (by rw [hp]) hk
  | joiningIdleWaitEnd =>
    refine when_roundKept h fun _ => ?_
    unfold endJoinWait
    dsimp only
    split <;> exact .of_same (by simp) (by simp)
  | lineIdle => exact when_roundKept h fun _ => .of_same (reachIdle_phase s) (reachIdle_rck s)
  | bitMismatch cell pulse =>
    refine when_roundKept h fun _ => ?_
    unfold mismatch
    dsimp only
    split <;> exact .of_same (by simp) (by simp)
  | frameDiscarded cells ack objection =>
    refine when_roundKept h fun _ => ?_
    unfold discard
    split <;> exact .of_same (by simp) (by simp)
  | lineFault =>
    unfold exec execLineFault at h
    exact when_roundKept h fun _ =>
      RoundKept.trans (t := faultAtLine s) (.of_same rfl rfl) (faultAtController_roundKept _)
  | recoveryQuietEnd =>
    refine when_roundKept h fun _ => ?_
    unfold leaveRecovering
    dsimp only
    split <;> exact .of_same (by simp) (by simp)
  | arbitrationLost | arbitrationWon | slotsReached | recoveryDeadline =>
    simp only [exec, execArbitrationLost, execArbitrationWon, execSlotsReached, execRecoveryDeadline] at h
    refine when_roundKept h fun _ => .of_same ?_ ?_ <;>
      simp [loseArbitration, winArbitration, reachSlots, recoveryFailed]
  | lineLevelChange change =>
    cases change with
    | toDominant ns => exact when_roundKept h (f := lineDominant ns) fun _ => .of_same rfl rfl
    | toRecessive ns => exact when_roundKept h (f := lineRecessive ns) fun _ => .of_same rfl rfl
  | blinkBaseHalfPeriod => cases h; exact .of_same (by simp [blinkOn]) (by simp [blinkOn])
  | inputFallingEdge d => exact when_roundKept h (f := fallInput d) fun _ => .of_same rfl rfl
  | inputRisingEdge d => exact when_roundKept h (f := riseInput d) fun _ => .of_same rfl rfl
  | jumpLockEnd => exact when_roundKept h fun _ => .refl s
  | rollWindowExpiry => exact when_roundKept h (f := endRoll) fun _ => .of_same rfl rfl
  | startMarkRecognized => exact when_roundKept h (f := beginReceiving) fun _ => .of_same rfl rfl
  | objectionRunBegun => exact when_roundKept h (f := leaveFrame) fun _ => .of_same rfl rfl
  | unknownCommand => exact when_roundKept h fun _ => answer_roundKept _ _ _ (.refl s)
  | storeWriteEnd | faultMemoryExpiry | droppedFrameFlashEnd | displayUpdateEnd | transferStart | transferEndNoCommand =>
    simp only [exec, execStoreWriteEnd, execFaultMemoryExpiry, execDroppedFrameFlashEnd, execDisplayUpdateEnd,
      execTransferStart, execTransferEndNoCommand] at h
    exact when_roundKept h fun _ => .of_same rfl rfl
  | nop | status | readScores | readClaims | readChoices | readPresence | readRollReport | readFaults | clearFaults
  | readEvents | clearEvents | setEventMask =>
    simp only [exec, execNop, execStatus, execReadScores, execReadClaims, execReadChoices, execReadPresence,
      execReadRollReport, execReadFaults, execClearFaults, execReadEvents, execClearEvents, execSetEventMask] at h
    exact command_roundKept h (.of_same rfl rfl)
  | storeRead row =>
    refine command_roundKept h ?_
    unfold storeRead
    (repeat' split) <;> exact answer_roundKept _ _ _ (.refl s)
  | storeWrite row value setup =>
    refine command_roundKept h ?_
    unfold storeWrite
    (repeat' split) <;> exact answer_roundKept _ _ _ (.of_same rfl rfl)
  | openRound block =>
    refine consoleCommand_roundKept h ?_
    unfold openRound
    split
    · exact handCommand_roundKept _ _ _ _ s fun _ => .of_same rfl rfl
    · exact answer_roundKept _ _ _ (.refl s)
  | closeRound =>
    refine consoleCommand_roundKept h ?_
    unfold closeRound
    split
    · exact handCommand_roundKept _ _ _ _ s .refl
    · exact answer_roundKept _ _ _ (.refl s)
  | verdictCommand outcome expected =>
    refine consoleCommand_roundKept h ?_
    unfold hostVerdict
    split
    · exact answer_roundKept _ _ _ (.refl s)
    · exact answer_roundKept _ _ _ (.refl s)
    · refine handCommand_roundKept _ _ _ _ s fun x => ?_
      unfold hostVerdictHanded
      split <;> exact .of_same rfl rfl
  | revealCommand key =>
    refine consoleCommand_roundKept h ?_
    unfold revealRound
    (repeat' split)
    · exact answer_roundKept _ _ _ (.refl s)
    · exact handCommand_roundKept _ _ _ _ s .refl
    · exact answer_roundKept _ _ _ (.refl s)
  | rollCall window =>
    refine consoleCommand_roundKept h ?_
    unfold rollCall
    split
    · exact answer_roundKept _ _ _ (.refl s)
    · exact handCommand_roundKept _ _ _ _ s fun _ => .of_same rfl rfl
  | setTotal team value =>
    refine consoleCommand_roundKept h ?_
    unfold setTotal correct
    split <;> exact answer_roundKept _ _ _ (.of_same (by simp) (by simp))
  | adjust team delta =>
    refine consoleCommand_roundKept h ?_
    unfold adjust correct
    split <;> exact answer_roundKept _ _ _ (.of_same (by simp) (by simp))
  | sendTally => exact consoleCommand_roundKept h (answer_roundKept _ _ _ (.of_same (by simp) (by simp)))
  | clearRollReport =>
    unfold exec execClearRollReport at h
    exact consoleCommand_roundKept h (answer_roundKept _ _ _ (.of_same rfl rfl))

/-- The clock's own tick moves its count upward by one and nothing of the round (R55). -/
theorem exec_roundClockTick (s t : State) (h : exec .roundClockTick s = .next t) :
    t.rng = s.rng ∧ t.rck.running = s.rck.running ∧ (t.rck.count = s.rck.count ∨ t.rck.count = s.rck.count + 1) := by
  rcases when_next (s.rck.running && decide (s.rck.count < Config.clockMax)) tick s with hw | hw <;>
    cases hw.symm.trans h
  · exact ⟨rfl, rfl, .inr rfl⟩
  · exact ⟨rfl, rfl, .inl rfl⟩

/-- Settles O20: a tick writes the clock's count alone, every other command keeps the round (`exec_roundKept`). -/
theorem roundBegunByOpen : Obligations.RoundBegunByOpen := by
  refine ⟨fun c s t hr ho h => ?_, fun c s t hr ho h => ?_⟩ <;> by_cases hc : c = .roundClockTick
  · subst hc
    obtain ⟨hrng, -, -⟩ := exec_roundClockTick s t h
    rw [hrng]
    exact ⟨id, id⟩
  · have hk := exec_roundKept c s t hr ho hc h
    exact ⟨hk.ended, hk.unsynced⟩
  · subst hc
    obtain ⟨-, hrun, hcount⟩ := exec_roundClockTick s t h
    exact ⟨fun hn => absurd rfl hn, by omega, by omega, by rw [hrun]; exact id⟩
  · have hk := exec_roundKept c s t hr ho hc h
    exact ⟨fun _ => hk.count, hk.count.ge, by rw [hk.count]; omega, hk.running⟩

end Sys2Proof.Machine

namespace Sys2Proof.Machine

open Sys2Proof.Safety

/-! ### The key order of the claim list (R99, R100) -/

theorem keyBefore_iff (a b : Entry) :
    keyBefore a b = true ↔
      a.stamp < b.stamp ∨ a.stamp = b.stamp ∧ (b.level < a.level ∨ a.level = b.level ∧ a.team < b.team) := by
  simp [keyBefore]

theorem keyBefore_trans {a b c : Entry} (h : keyBefore a b = true) (k : keyBefore b c = true) : keyBefore a c = true := by
  rw [keyBefore_iff] at *
  omega

/-- The keys of two teams differ: one stands before the other. -/
theorem keyBefore_total {a b : Entry} (h : a.team ≠ b.team) (hn : ¬keyBefore a b = true) : keyBefore b a = true := by
  rw [keyBefore_iff] at *
  omega

theorem insertKey_perm (e : Entry) (es : List Entry) : (insertKey e es).Perm (e :: es) := by
  induction es with
  | nil => exact .refl _
  | cons x xs ih =>
    unfold insertKey
    split
    · exact .refl _
    · exact (ih.cons x).trans (.swap e x xs)

theorem mem_insertKey {e x : Entry} {es : List Entry} : x ∈ insertKey e es ↔ x = e ∨ x ∈ es := by
  rw [(insertKey_perm e es).mem_iff, List.mem_cons]

/-- Insertion at the key position keeps the key order (R100). -/
theorem insertKey_ordered (e : Entry) (es : List Entry) (h : es.Pairwise fun a b => keyBefore a b = true)
    (hn : ∀ x ∈ es, x.team ≠ e.team) : (insertKey e es).Pairwise fun a b => keyBefore a b = true := by
  induction es with
  | nil => simp [insertKey]
  | cons x xs ih =>
    obtain ⟨hx, hxs⟩ := List.pairwise_cons.mp h
    unfold insertKey
    split
    case isTrue hb =>
      refine List.pairwise_cons.mpr ⟨fun y hy => ?_, h⟩
      rcases List.mem_cons.mp hy with rfl | hy
      · exact hb
      · exact keyBefore_trans hb (hx y hy)
    case isFalse hb =>
      refine List.pairwise_cons.mpr ⟨fun y hy => ?_, ih hxs fun y hy => hn y (.tail x hy)⟩
      rcases mem_insertKey.mp hy with rfl | hy
      · exact keyBefore_total (hn x (.head xs)).symm hb
      · exact hx y hy

/-! ### The two parts of the list (R99) -/

theorem mem_grantedPart {e : Entry} {es : List Entry} : e ∈ grantedPart es ↔ e ∈ es ∧ e.status ≠ .waiting := by
  simp [grantedPart]

theorem mem_waitingPart {e : Entry} {es : List Entry} : e ∈ waitingPart es ↔ e ∈ es ∧ e.status = .waiting := by
  simp [waitingPart]

/-- Entries with their turn before entries without: the two parts are just these. -/
theorem parts_append {g w : List Entry} (hg : ∀ e ∈ g, e.status ≠ .waiting) (hw : ∀ e ∈ w, e.status = .waiting) :
    grantedPart (g ++ w) = g ∧ waitingPart (g ++ w) = w := by
  unfold grantedPart waitingPart
  rw [List.filter_append, List.filter_append, List.filter_eq_self.mpr (by simpa using hg),
    List.filter_eq_nil_iff.mpr (by simpa using hw), List.filter_eq_nil_iff.mpr (by simpa using hg),
    List.filter_eq_self.mpr (by simpa using hw)]
  simp

/-- A list in order, from its two parts (R97, R99, R100). -/
theorem listOrdered_append {g w : List Entry} (hg : ∀ e ∈ g, e.status ≠ .waiting) (hw : ∀ e ∈ w, e.status = .waiting)
    (hkey : w.Pairwise fun a b => keyBefore a b = true) (hone : ((g ++ w).map Entry.team).Nodup)
    (hteam : ∀ e ∈ g ++ w, isTeam e.team = true) (hlast : ∀ e ∈ g.dropLast, e.status ≠ .answering) :
    ListOrdered (g ++ w) := by
  obtain ⟨h1, h2⟩ := parts_append hg hw
  unfold ListOrdered
  rw [h1, h2]
  exact ⟨rfl, hkey, hone, hteam, hlast⟩

/-- Teams stand once: two entries of one team are one. -/
theorem entry_unique {es : List Entry} (h : (es.map Entry.team).Nodup) {a b : Entry} (ha : a ∈ es) (hb : b ∈ es)
    (hab : a.team = b.team) : a = b := List.inj_on_of_nodup_map h ha hb hab

theorem listOrdered_unique {es : List Entry} (h : ListOrdered es) {a b : Entry} (ha : a ∈ es) (hb : b ∈ es)
    (hab : a.team = b.team) : a = b := by
  obtain ⟨-, -, hone, -, -⟩ := h
  exact entry_unique hone ha hb hab

theorem listOrdered_isTeam {es : List Entry} (h : ListOrdered es) {e : Entry} (he : e ∈ es) : isTeam e.team = true := by
  obtain ⟨-, -, -, hteam, -⟩ := h
  exact hteam e he

/-- Entries taken out of a list leave it in order (R99). -/
theorem listOrdered_filter (p : Entry → Bool) {es : List Entry} (h : ListOrdered es) : ListOrdered (es.filter p) := by
  obtain ⟨hparts, hkey, hone, hteam, hlast⟩ := h
  have hsub : (es.filter p).Sublist es := List.filter_sublist
  have hfilter : (grantedPart es).filter p ++ (waitingPart es).filter p = es.filter p := by
    rw [← List.filter_append, hparts]
  rw [← hfilter] at hsub ⊢
  refine listOrdered_append (fun e he => (mem_grantedPart.mp (List.mem_filter.mp he).1).2)
    (fun e he => (mem_waitingPart.mp (List.mem_filter.mp he).1).2) (hkey.filter p) (hone.sublist (hsub.map _))
    (fun e he => hteam e (hsub.mem he)) fun e he => hlast e ?_
  rcases List.eq_nil_or_concat (grantedPart es) with hnil | ⟨g, l, hg⟩
  · rw [hnil] at he
    cases he
  · rw [hg] at he ⊢
    rw [List.concat_eq_append, List.dropLast_concat]
    rw [List.concat_eq_append, List.filter_append] at he
    cases hp : p l
    · rw [List.filter_cons_of_neg (by simp [hp]), List.filter_nil, List.append_nil] at he
      exact (List.mem_filter.mp (List.mem_of_mem_dropLast he)).1
    · rw [List.filter_cons_of_pos hp, List.filter_nil, List.dropLast_concat] at he
      exact (List.mem_filter.mp he).1

theorem mem_withoutTeam {t : Nat} {e : Entry} {es : List Entry} : e ∈ withoutTeam t es ↔ e ∈ es ∧ e.team ≠ t := by
  simp [withoutTeam]

/-! ### Placing, granting, ending a turn, aligning (R103, R107, R109, R111) -/

/-- An entry as it is placed in a waiting part (R103). -/
def placedEntry (e : Entry) (es : List Entry) : Entry :=
  { e with status := .waiting, late := (grantedPart es).any (keyBefore e) }

theorem mem_placeWaiting {e x : Entry} {es : List Entry} :
    x ∈ placeWaiting e es ↔ x = placedEntry e es ∨ x ∈ es := by
  have hsplit : x ∈ es ↔ x ∈ grantedPart es ∨ x ∈ waitingPart es := by
    rw [mem_grantedPart, mem_waitingPart]
    tauto
  have hplace : placeWaiting e es = grantedPart es ++ insertKey (placedEntry e es) (waitingPart es) := rfl
  rw [hplace, List.mem_append, mem_insertKey, hsplit]
  tauto

/-- A team without an entry is placed among the WAITING ones, the list in order (R99, R103). -/
theorem listOrdered_placeWaiting (e : Entry) {es : List Entry} (h : ListOrdered es) (hn : ∀ x ∈ es, x.team ≠ e.team)
    (ht : isTeam e.team = true) : ListOrdered (placeWaiting e es) := by
  have hmem := fun x => (mem_placeWaiting (e := e) (x := x) (es := es)).mp
  have hplace : placeWaiting e es = grantedPart es ++ insertKey (placedEntry e es) (waitingPart es) := rfl
  have hperm : (placeWaiting e es).Perm (placedEntry e es :: es) := by
    have hmid := ((insertKey_perm (placedEntry e es) (waitingPart es)).append_left (grantedPart es)).trans
      List.perm_middle
    rwa [h.1] at hmid
  obtain ⟨-, hkey, hone, hteam, hlast⟩ := h
  rw [hplace] at hmem hperm ⊢
  refine listOrdered_append (fun x hx => (mem_grantedPart.mp hx).2) (fun x hx => ?_)
    (insertKey_ordered _ _ hkey fun x hx => hn x (mem_waitingPart.mp hx).1) ?_ (fun x hx => ?_) hlast
  · rcases mem_insertKey.mp hx with rfl | hx
    · rfl
    · exact (mem_waitingPart.mp hx).2
  · rw [(hperm.map _).nodup_iff, List.map_cons, List.nodup_cons]
    refine ⟨fun hx => ?_, hone⟩
    obtain ⟨x, hx, hxt⟩ := List.mem_map.mp hx
    exact hn x hx hxt
  · rcases hmem x hx with rfl | hx
    · exact ht
    · exact hteam x hx

theorem mem_turn {e x : Entry} {es : List Entry} (h : x ∈ grantedPart es ++ e :: waitingPart es) : x = e ∨ x ∈ es := by
  rcases List.mem_append.mp h with h | h
  · exact .inr (mem_grantedPart.mp h).1
  · exact (List.mem_cons.mp h).imp_right fun h => (mem_waitingPart.mp h).1

/-- Beside an entry that answers no other does; it stands last of the granted part (R99, R107, R111). -/
theorem listOrdered_turn (e : Entry) {es : List Entry} (h : ListOrdered es) (hs : e.status ≠ .waiting)
    (hn : ∀ x ∈ es, x.team ≠ e.team) (ht : isTeam e.team = true) (hrest : ∀ x ∈ es, x.status ≠ .answering) :
    ListOrdered (grantedPart es ++ e :: waitingPart es) := by
  obtain ⟨hparts, hkey, hone, hteam, -⟩ := h
  have hperm : ((grantedPart es ++ [e]) ++ waitingPart es).Perm (e :: es) := by
    have hmid : (grantedPart es ++ e :: waitingPart es).Perm (e :: (grantedPart es ++ waitingPart es)) := List.perm_middle
    rwa [hparts, List.append_cons] at hmid
  rw [List.append_cons]
  refine listOrdered_append (fun x hx => ?_) (fun x hx => (mem_waitingPart.mp hx).2) hkey ?_ (fun x hx => ?_)
    fun x hx => ?_
  · rcases List.mem_append.mp hx with hx | hx
    · exact (mem_grantedPart.mp hx).2
    · rwa [List.mem_singleton.mp hx]
  · rw [(hperm.map _).nodup_iff, List.map_cons, List.nodup_cons]
    refine ⟨fun hx => ?_, hone⟩
    obtain ⟨x, hx, hxt⟩ := List.mem_map.mp hx
    exact hn x hx hxt
  · rcases List.mem_cons.mp (hperm.mem_iff.mp hx) with rfl | hx
    · exact ht
    · exact hteam x hx
  · rw [List.dropLast_concat] at hx
    exact hrest x (mem_grantedPart.mp hx).1

/-- The list's part of the invariant: in order, its ANSWERING entry this team's, or none where no team answers. -/
abbrev AnswersAs (answering : Option Nat) (es : List Entry) : Prop :=
  ListOrdered es ∧ (∀ e ∈ es, e.status = .answering → answering = some e.team) ∧
    ∀ t, answering = some t → ∃ e ∈ es, e.team = t ∧ e.status = .answering

theorem claimsSound_iff (s : State) : ClaimsSound s ↔ AnswersAs s.rng.answering s.clt.entries := by
  unfold ClaimsSound AnswerAgrees AnswersAs
  cases s.rng.answering <;> simp

section
variable {r : Rng} {answering : Option Nat} {es : List Entry}

/-- A placed entry is WAITING, so the turn in progress stays (R103). -/
theorem answersAs_placeWaiting (e : Entry) (h : AnswersAs answering es) (hn : ∀ x ∈ es, x.team ≠ e.team)
    (ht : isTeam e.team = true) : AnswersAs answering (placeWaiting e es) := by
  obtain ⟨hord, honly, hsome⟩ := h
  refine ⟨listOrdered_placeWaiting e hord hn ht, fun x hx ha => ?_, fun t hat => ?_⟩
  · rcases mem_placeWaiting.mp hx with rfl | hx
    · cases ha
    · exact honly x hx ha
  · obtain ⟨x, hx, hxt⟩ := hsome t hat
    exact ⟨x, mem_placeWaiting.mpr (.inr hx), hxt⟩

/-- A team's entry that does not answer may be taken out. -/
theorem answersAs_withoutTeam (t : Nat) (h : AnswersAs answering es) (hn : ∀ x ∈ es, x.team = t → x.status ≠ .answering) :
    AnswersAs answering (withoutTeam t es) := by
  obtain ⟨hord, honly, hsome⟩ := h
  refine ⟨listOrdered_filter _ hord, fun x hx => honly x (mem_withoutTeam.mp hx).1, fun u hu => ?_⟩
  obtain ⟨x, hx, hxu, hxa⟩ := hsome u hu
  exact ⟨x, mem_withoutTeam.mpr ⟨hx, fun hxt => hn x hx hxt hxa⟩, hxu, hxa⟩

theorem entryOf_some {t : Nat} {e : Entry} (h : entryOf t es = some e) : e ∈ es ∧ e.team = t :=
  ⟨List.mem_of_find?_eq_some h, by simpa using List.find?_some h⟩

theorem entryOf_none {t : Nat} (h : entryOf t es = none) : ∀ e ∈ es, e.team ≠ t := by
  simpa [entryOf] using h

/-- A CLAIM taken leaves the turn in progress as it is (R103 to R105). -/
theorem answersAs_takeClaim (desk stamp team : Nat) (h : AnswersAs answering es) (ht : isTeam team = true) :
    AnswersAs answering (takeClaim r desk stamp team es) := by
  unfold takeClaim
  split
  case h_1 hnone => exact answersAs_placeWaiting _ h (entryOf_none hnone) ht
  case h_2 e hsome =>
    obtain ⟨he, het⟩ := entryOf_some hsome
    split
    case isFalse => exact h
    case isTrue hearlier =>
      have hout : AnswersAs answering (withoutTeam team es) :=
        answersAs_withoutTeam team h fun x hx hxt ha => by
          rw [listOrdered_unique h.1 hx he (hxt.trans het.symm), hearlier.1] at ha
          cases ha
      refine answersAs_placeWaiting _ hout (fun x hx => ?_) (het ▸ ht)
      exact het ▸ (mem_withoutTeam.mp hx).2

/-- An entry that answers, put last of the granted part of a list that has none, holds the turn in progress (R107, R111). -/
theorem answersAs_turn (e : Entry) (h : ListOrdered es) (hs : e.status = .answering) (hn : ∀ x ∈ es, x.team ≠ e.team)
    (ht : isTeam e.team = true) (hrest : ∀ x ∈ es, x.status ≠ .answering) :
    AnswersAs (some e.team) (grantedPart es ++ e :: waitingPart es) := by
  refine ⟨listOrdered_turn e h (by simp [hs]) hn ht hrest, fun x hx ha => ?_, fun t het => ⟨e, by simp, ?_, hs⟩⟩
  · rcases mem_turn hx with rfl | hx
    · rfl
    · exact absurd ha (hrest x hx)
  · exact Option.some.inj het

/-- The grant is such a turn: the head of the waiting part, put last of the granted part of the list without it (R107). -/
theorem grantHead_eq {e : Entry} (h : ListOrdered es) (hhead : waitingHead es = some e) :
    grantHead es =
      grantedPart (withoutTeam e.team es) ++ { e with status := .answering } :: waitingPart (withoutTeam e.team es) := by
  obtain ⟨hparts, -, hone, -⟩ := h
  obtain ⟨rest, hrest⟩ : ∃ rest, waitingPart es = e :: rest := List.head?_eq_some_iff.mp hhead
  have hgrant : grantHead es = grantedPart es ++ { e with status := .answering } :: rest := by
    unfold grantHead
    rw [hrest]
  rw [← hparts, hrest, List.map_append, List.map_cons, List.nodup_middle, List.nodup_cons, ← List.map_append] at hone
  have hother : ∀ x ∈ grantedPart es ++ rest, x.team ≠ e.team := fun x hx hxe => hone.1 (hxe ▸ List.mem_map_of_mem hx)
  have hout : withoutTeam e.team es = grantedPart es ++ rest := by
    have hself : ∀ l : List Entry, (∀ x ∈ l, x.team ≠ e.team) → withoutTeam e.team l = l := fun l hl =>
      List.filter_eq_self.mpr (by simpa using hl)
    rw [← hself _ hother]
    conv_lhs => rw [← hparts, hrest]
    simp [withoutTeam]
  obtain ⟨hg, hw⟩ := parts_append (g := grantedPart es) (w := rest) (fun x hx => (mem_grantedPart.mp hx).2)
    fun x hx => (mem_waitingPart.mp (by rw [hrest]; exact .tail e hx)).2
  rw [hgrant, hout, hg, hw]

/-- The grant makes the head of the waiting part the entry that answers (R84, R107). -/
theorem answersAs_grantHead {e : Entry} (h : ListOrdered es) (hnone : ∀ x ∈ es, x.status ≠ .answering)
    (hhead : waitingHead es = some e) : AnswersAs (some e.team) (grantHead es) := by
  have he : e ∈ es := (mem_waitingPart.mp (List.mem_of_head? hhead)).1
  rw [grantHead_eq h hhead]
  exact answersAs_turn { e with status := .answering } (listOrdered_filter _ h) rfl
    (fun x hx => (mem_withoutTeam.mp hx).2) (listOrdered_isTeam (e := e) h he) fun x hx => hnone x (mem_withoutTeam.mp hx).1

/-- An ended turn's entry has had its turn. -/
theorem endedEntry_status (o : TurnOutcome) (e : Entry) :
    (endedEntry o e).status ≠ .waiting ∧ (endedEntry o e).status ≠ .answering := by
  cases o <;> simp [endedEntry]

theorem endedEntry_team (o : TurnOutcome) (e : Entry) : (endedEntry o e).team = e.team := by cases o <;> rfl

/-- An entry as the end of a team's turn leaves it (R109). -/
def endedAt (t : Nat) (o : TurnOutcome) (e : Entry) : Entry := if e.team = t then endedEntry o e else e

theorem endEntry_eq (t : Nat) (o : TurnOutcome) (es : List Entry) : endEntry t o es = es.map (endedAt t o) := rfl

theorem endedAt_team (t : Nat) (o : TurnOutcome) (e : Entry) : (endedAt t o e).team = e.team := by
  unfold endedAt
  split
  · exact endedEntry_team o e
  · rfl

theorem endedAt_granted (t : Nat) (o : TurnOutcome) (e : Entry) (h : e.status ≠ .waiting) :
    (endedAt t o e).status ≠ .waiting := by
  unfold endedAt
  split
  · exact (endedEntry_status o e).1
  · exact h

theorem endedAt_silent (t : Nat) (o : TurnOutcome) (e : Entry) (h : e.status = .answering → e.team = t) :
    (endedAt t o e).status ≠ .answering := by
  unfold endedAt
  split
  case isTrue => exact (endedEntry_status o e).2
  case isFalse hn => exact mt h hn

/-- The end of the turn in progress leaves no entry ANSWERING and every entry in its place (R87, R109). -/
theorem answersAs_endEntry {team : Nat} (o : TurnOutcome) (h : AnswersAs (some team) es) :
    AnswersAs none (endEntry team o es) := by
  obtain ⟨⟨hparts, hkey, hone, hteam, -⟩, honly, hsome⟩ := h
  have hwait : (waitingPart es).map (endedAt team o) = waitingPart es := by
    refine (List.map_congr_left fun x hx => if_neg fun hxt => ?_).trans (List.map_id _)
    obtain ⟨hx, hxw⟩ := mem_waitingPart.mp hx
    obtain ⟨y, hy, hyt, hya⟩ := hsome team rfl
    rw [entry_unique hone hx hy (hxt.trans hyt.symm), hya] at hxw
    cases hxw
  have hsplit : endEntry team o es = (grantedPart es).map (endedAt team o) ++ waitingPart es :=
    calc endEntry team o es = (grantedPart es ++ waitingPart es).map (endedAt team o) := by rw [hparts, endEntry_eq]
      _ = _ := by rw [List.map_append, hwait]
  have hmem : ∀ x ∈ endEntry team o es, isTeam x.team = true ∧ x.status ≠ .answering := fun x hx => by
    obtain ⟨y, hy, rfl⟩ := List.mem_map.mp hx
    exact ⟨(endedAt_team team o y).symm ▸ hteam y hy,
      endedAt_silent team o y fun ha => (Option.some.inj (honly y hy ha)).symm⟩
  have hnames : (endEntry team o es).map Entry.team = es.map Entry.team := by
    rw [endEntry_eq, List.map_map]
    exact List.map_congr_left fun x _ => endedAt_team team o x
  refine ⟨?_, fun x hx ha => absurd ha (hmem x hx).2, fun t ht => by cases ht⟩
  rw [hsplit] at hnames hmem ⊢
  refine listOrdered_append (fun x hx => ?_) (fun x hx => (mem_waitingPart.mp hx).2) hkey (by rwa [hnames])
    (fun x hx => (hmem x hx).1) fun x hx => (hmem x (List.mem_append_left _ (List.mem_of_mem_dropLast hx))).2
  obtain ⟨y, hy, rfl⟩ := List.mem_map.mp hx
  exact endedAt_granted team o y (mem_grantedPart.mp hy).2

/-- The turn of a verdict out of step is this team's, whatever the list holds of it. -/
theorem turnEntry_holds (r : Rng) (count team : Nat) (es : List Entry) :
    (turnEntry r count team es).team = team ∧ (turnEntry r count team es).status = .answering := by
  unfold turnEntry
  split
  case h_1 h => exact ⟨(entryOf_some h).2, rfl⟩
  case h_2 => exact ⟨rfl, rfl⟩

/-- The entries that an alignment neither takes the turn from nor gives it to (R111, R112). -/
def keptEntries (team : Nat) (es : List Entry) : List Entry := (withoutTeam team es).filter fun e => !isRival team e

theorem mem_keptEntries {team : Nat} {x : Entry} (h : x ∈ keptEntries team es) :
    x ∈ es ∧ x.team ≠ team ∧ x.status ≠ .answering := by
  obtain ⟨hx, hrival⟩ := List.mem_filter.mp h
  obtain ⟨hx, hxt⟩ := mem_withoutTeam.mp hx
  exact ⟨hx, hxt, by simpa [isRival, hxt] using hrival⟩

/-- The list aligned with a verdict out of step: in order, its ANSWERING entry the verdict's team's (R111, R112). -/
theorem answersAs_alignEntries (count team : Nat) (h : AnswersAs answering es) (ht : isTeam team = true) :
    AnswersAs (some team) (alignEntries r count team es) := by
  obtain ⟨hord, honly, -⟩ := h
  obtain ⟨htteam, htstatus⟩ := turnEntry_holds r count team es
  have hbase : AnswersAs (some team)
      (grantedPart (keptEntries team es) ++ turnEntry r count team es :: waitingPart (keptEntries team es)) := by
    have hturn := answersAs_turn (turnEntry r count team es) (listOrdered_filter _ (listOrdered_filter _ hord)) htstatus
      (fun x hx => by rw [htteam]; exact (mem_keptEntries hx).2.1) (by rwa [htteam]) fun x hx => (mem_keptEntries hx).2.2
    rwa [htteam] at hturn
  unfold alignEntries
  dsimp only
  split
  case h_1 => exact hbase
  case h_2 e hrival =>
    obtain ⟨he, het⟩ := mem_withoutTeam.mp (List.mem_of_find?_eq_some hrival)
    have hea : e.status = .answering := by
      have hfound := List.find?_some hrival
      simp only [isRival, Bool.and_eq_true, beq_iff_eq] at hfound
      exact hfound.1
    refine answersAs_placeWaiting _ hbase (fun x hx => ?_) (listOrdered_isTeam (e := e) hord he)
    rcases mem_turn hx with rfl | hx
    · rw [htteam]
      exact het.symm
    · obtain ⟨hxes, -, hxa⟩ := mem_keptEntries hx
      exact fun hxe => hxa (by rwa [listOrdered_unique hord hxes he hxe])

end

end Sys2Proof.Machine

namespace Sys2Proof.Machine

open Sys2Proof.Safety

/-! ### Grants, settling out and CLOSING (R84, R92, R93, R106) -/

theorem deadlineReached_iff (s : State) (e : Entry) :
    deadlineReached s e = true ↔
      s.rng.saturated = true ∨ e.stamp * s.rng.grain + s.rng.settleTicks ≤ s.rck.count := by
  rw [deadlineReached, Bool.or_eq_true, decide_eq_true_iff, settleDeadlineOf]

theorem anyAnswering_false (es : List Entry) : anyAnswering es = false ↔ ∀ e ∈ es, e.status ≠ .answering := by
  simp [anyAnswering]

theorem anyOpen_false (es : List Entry) :
    anyOpen es = false ↔ ∀ e ∈ es, e.status ≠ .waiting ∧ e.status ≠ .answering := by
  simp [anyOpen]

/-- What is asked of the head of the waiting part is asked of the part's first entry. -/
theorem waitingHead_any (es : List Entry) (p : Entry → Bool) :
    (waitingHead es).any p = true ↔ ∃ e rest, waitingPart es = e :: rest ∧ p e = true := by
  unfold waitingHead
  cases waitingPart es with
  | nil => simp
  | cons e rest => simp

theorem grantDue_iff (s : State) :
    grantDue s = true ↔
      s.rng.phase = .live ∧ s.rng.format = .buzz ∧ (∀ e ∈ s.clt.entries, e.status ≠ .answering) ∧
        ∃ e rest, waitingPart s.clt.entries = e :: rest ∧
          (s.rng.saturated = true ∨ e.stamp * s.rng.grain + s.rng.settleTicks ≤ s.rck.count) := by
  simp only [grantDue, Bool.and_eq_true, beq_iff_eq, Bool.not_eq_true', anyAnswering_false, waitingHead_any,
    deadlineReached_iff, and_assoc]

theorem settleOutDue_iff (s : State) :
    settleOutDue s = true ↔
      s.rng.phase = .live ∧ s.rng.format = .buzz ∧ s.rng.closed = true ∧
        (∀ e ∈ s.clt.entries, e.status ≠ .waiting ∧ e.status ≠ .answering) ∧
        (s.rng.saturated = true ∨ s.rng.closePoint + s.rng.settleTicks ≤ s.rck.count) := by
  simp only [settleOutDue, Bool.and_eq_true, Bool.or_eq_true, beq_iff_eq, Bool.not_eq_true', anyOpen_false,
    decide_eq_true_eq, and_assoc]

theorem closingDue_iff (s : State) :
    closingDue s = true ↔ s.rng.phase = .live ∧ s.rng.format = .choice ∧ s.rng.closed = true := by
  simp only [closingDue, Bool.and_eq_true, beq_iff_eq, and_assoc]

end Sys2Proof.Machine

namespace Sys2Proof.Machine

open Sys2Proof.Safety

/-! ### The answering team, untouched by queue and handers (R37 to R50) -/

@[simp] theorem verdictDropped_answering (b : Bool) (s : State) :
    (verdictDropped b s).rng.answering = s.rng.answering := by
  unfold verdictDropped
  (repeat' split) <;> simp

@[simp] theorem told_answering (x : Fate) (f : QFrame) (s : State) : (told x f s).rng.answering = s.rng.answering := by
  unfold told
  (repeat' split) <;> simp

@[simp] theorem resolve_answering (e : AttemptEnd) (s : State) : (resolve e s).rng.answering = s.rng.answering := by
  unfold resolve resolveAttempt leave
  (repeat' split) <;> simp

@[simp] theorem endAttempt_answering (e : AttemptEnd) (s : State) : (endAttempt e s).rng.answering = s.rng.answering := by
  simp [endAttempt]

@[simp] theorem withdraw_answering (p : Place) (s : State) : (withdraw p s).rng.answering = s.rng.answering := by
  unfold withdraw
  dsimp only
  (repeat' split) <;> simp

@[simp] theorem enterEnded_answering (s : State) : (enterEnded s).rng.answering = s.rng.answering := by
  simp [enterEnded, withdrawOwn]

@[simp] theorem foldDrop_answering (q : List QFrame) (s : State) :
    (q.foldl dropFrame s).rng.answering = s.rng.answering := by
  induction q generalizing s with
  | nil => rfl
  | cons f q ih => simp [ih, dropFrame]

@[simp] theorem enterHalted_answering (s : State) : (enterHalted s).rng.answering = s.rng.answering := by
  simp [enterHalted, emptyQueue]

@[simp] theorem checkDuplicate_answering (own : Bool) (d : Nat) (s : State) :
    (checkDuplicate own d s).rng.answering = s.rng.answering := by
  unfold checkDuplicate mute enterMuted
  (repeat' split) <;> simp [emptyQueue]

@[simp] theorem takenAtLine_answering (s : State) : (takenAtLine s).rng.answering = s.rng.answering := by
  unfold takenAtLine
  split <;> simp

@[simp] theorem reachIdle_answering (s : State) : (reachIdle s).rng.answering = s.rng.answering := by
  unfold reachIdle
  dsimp only
  (repeat' split) <;> simp

@[simp] theorem breakAttempt_answering (e : AttemptEnd) (s : State) :
    (breakAttempt e s).rng.answering = s.rng.answering := by
  simp [breakAttempt]

/-! ### The claim list's invariant carried over -/

/-- What a step keeps of the claim list: sound before, sound after. -/
def ClaimsKept (s t : State) : Prop := ClaimsSound s → ClaimsSound t

/-- List and answering team unchanged. -/
theorem ClaimsKept.of_same {s t : State} (hl : t.clt = s.clt) (ha : t.rng.answering = s.rng.answering) :
    ClaimsKept s t := by
  unfold ClaimsKept
  rw [claimsSound_iff, claimsSound_iff, hl, ha]
  exact id

theorem ClaimsKept.refl (s : State) : ClaimsKept s s := id

theorem ClaimsKept.trans {s t u : State} (h : ClaimsKept s t) (k : ClaimsKept t u) : ClaimsKept s u := k ∘ h

/-- No entry of an empty list answers, and no team. -/
theorem claimsSound_empty {s : State} (hl : s.clt.entries = []) (ha : s.rng.answering = none) : ClaimsSound s := by
  rw [claimsSound_iff, hl, ha]
  unfold AnswersAs ListOrdered
  simp [grantedPart, waitingPart]

/-! ### The round engine -/

/-- A grant finds no entry ANSWERING (R106). -/
theorem grant_claimsKept (s : State) (h : grantDue s = true) : ClaimsKept s (grant s) := by
  intro hs
  unfold grant
  split
  case h_1 => exact hs
  case h_2 e hhead =>
    obtain ⟨-, -, hnone, -⟩ := (grantDue_iff s).mp h
    rw [claimsSound_iff]
    exact answersAs_grantHead ((claimsSound_iff s).mp hs).1 hnone hhead

theorem advance_claimsKept (s : State) : ClaimsKept s (advance s) := by
  unfold advance
  split
  · exact .of_same rfl rfl
  split
  case isTrue hdue => exact grant_claimsKept s hdue
  split
  · exact .of_same (enterEnded_clt s) (enterEnded_answering s)
  · exact .refl s

/-- The end of the turn in progress (R87, R109). -/
theorem closeTurn_claimsKept (team : Nat) (o : TurnOutcome) (s : State) (h : s.rng.answering = some team) :
    ClaimsKept s (closeTurn team o s) := by
  intro hs
  rw [claimsSound_iff, h] at hs
  rw [claimsSound_iff]
  exact answersAs_endEntry o hs

theorem phaseAfterTurn_claimsKept (o : TurnOutcome) (s : State) : ClaimsKept s (phaseAfterTurn o s) := by
  unfold phaseAfterTurn
  split
  · exact .refl s
  split
  · exact .of_same (enterEnded_clt s) (enterEnded_answering s)
  · exact .of_same rfl rfl

/-- The list in step, or aligned, holds the verdict's turn (R110 to R113). -/
theorem align_claimsKept (turn team : Nat) (s : State) (ht : isTeam team = true) :
    ClaimsKept s ((align turn team s).withRng { (align turn team s).rng with turn := turn, answering := some team }) := by
  intro hs
  rw [claimsSound_iff] at hs ⊢
  unfold align
  split
  case isTrue hstep =>
    have hteam : s.rng.answering = some team := by
      simp only [inStep, Bool.and_eq_true, beq_iff_eq] at hstep
      exact hstep.1
    rwa [hteam] at hs
  case isFalse => exact answersAs_alignEntries s.rck.count team hs ht

theorem fullVerdict_claimsKept (turn team : Nat) (o : TurnOutcome) (check : Int) (s : State) (ht : isTeam team = true) :
    ClaimsKept s (fullVerdict turn team o check s) := by
  have hscores : ∀ x, ClaimsKept x (takeCheckTotal team check (scoreTurn turn team o x)) := fun x =>
    .of_same (by simp) (by simp)
  exact (((align_claimsKept turn team s ht).trans (closeTurn_claimsKept team o _ rfl)).trans (hscores _)).trans
    (phaseAfterTurn_claimsKept o _)

theorem reachArm_claimsKept (s : State) : ClaimsKept s (reachArm s) := by
  unfold reachArm
  split
  · exact ClaimsKept.trans (t := setPhase .live s) (.of_same rfl rfl) (advance_claimsKept _)
  · exact .refl s

theorem endWindow_claimsKept (s : State) : ClaimsKept s (endWindow s) :=
  ClaimsKept.trans (t := s.withRng { s.rng with closed := true }) (.of_same rfl rfl) (advance_claimsKept _)

theorem saturateClock_claimsKept (s : State) : ClaimsKept s (saturateClock s) := by
  by_cases hc : s.rng.phase.closable = true
  · rw [saturateClock_closable s hc]
    refine ClaimsKept.trans ?_ (advance_claimsKept _)
    exact .of_same rfl rfl
  · rw [saturateClock, if_neg hc]
    exact .of_same rfl rfl

theorem answerExpiry_claimsKept (s : State) : ClaimsKept s (answerExpiry s) := by
  unfold answerExpiry
  dsimp only
  split <;> exact .of_same (by simp) (by simp)

/-! ### What the owners of a frame leave of the list -/

/-- An OPEN empties the list (R98). -/
theorem openEffect_claimsKept (round : Byte) (b : OpenBlock) (s : State) : ClaimsKept s (openEffect round b s) :=
  ClaimsKept.trans (fun _ => claimsSound_empty rfl rfl) (reachArm_claimsKept _)

theorem closeEffect_claimsKept (round : Byte) (point : Triple) (s : State) : ClaimsKept s (closeEffect round point s) := by
  unfold closeEffect
  dsimp only
  split
  · refine ClaimsKept.trans
      (t := s.withRng { s.rng with closePoint := min s.rng.closePoint point.toNat, closed := true }) (.of_same rfl rfl) ?_
    split
    · exact .of_same (enterEnded_clt _) (enterEnded_answering _)
    · exact advance_claimsKept _
  · exact .refl s

/-- A VERDICT is handled in full for a team of the round alone (R89). -/
theorem verdictHandling_team {r : Rng} {round turn team code : Nat} {o : TurnOutcome}
    (h : verdictHandling r round turn team code = .full o) : isTeam team = true := by
  cases ht : isTeam team
  · rw [verdictHandling, if_pos ht] at h
    cases h
  · rfl

theorem verdictAtConsole_claimsKept (own : Bool) (s : State) : ClaimsKept s (verdictAtConsole own s) := by
  unfold verdictAtConsole
  split <;> exact .of_same (by simp) (by simp)

theorem verdictEffect_claimsKept (own : Bool) (round turn team outcome : Byte) (check : Half) (s : State) :
    ClaimsKept s (verdictEffect own round turn team outcome check s) := by
  unfold verdictEffect
  split
  · exact verdictAtConsole_claimsKept own s
  · exact ClaimsKept.trans (.of_same (by simp) (by simp)) (verdictAtConsole_claimsKept own _)
  · rename_i o h
    exact ((fullVerdict_claimsKept turn.toNat team.toNat o check.toInt s (verdictHandling_team h)).trans
      (verdictAtConsole_claimsKept own _)).trans (advance_claimsKept _)

theorem passEffect_claimsKept (round turn team : Byte) (s : State) : ClaimsKept s (passEffect round turn team s) := by
  unfold passEffect
  split
  case isTrue h =>
    have hgiven : ∀ x, ClaimsKept x (supersede turn.toNat x) := by
      intro x
      unfold supersede
      split <;> exact .of_same (by simp) (by simp)
    obtain ⟨-, -, -, hteam⟩ := (passEnds_iff _ _ _ _).mp h
    exact (((closeTurn_claimsKept team.toNat .pass s hteam).trans
      (phaseAfterTurn_claimsKept .pass _)).trans (hgiven _)).trans (advance_claimsKept _)
  case isFalse => exact .refl s

/-- A CLAIM accepted takes its place in the list; the desk's part and what follows keep it (R102 to R105). -/
theorem claimEffect_claimsKept (desk : Desk) (round : Byte) (stamp : Triple) (team : Byte) (s : State) :
    ClaimsKept s (claimEffect desk round stamp team s) := by
  have hlist : ClaimsKept s (claimAtList desk.toNat round.toNat stamp.toNat team.toNat s) := by
    unfold claimAtList
    split
    case isTrue h =>
      intro hs
      rw [claimsSound_iff] at hs ⊢
      obtain ⟨-, -, -, -, -, -, hteam⟩ := (claimAccepted_iff _ _ _ _).mp h
      exact answersAs_takeClaim _ _ _ hs ((isTeam_iff _).mpr hteam)
    case isFalse => exact .refl s
  have hdesk : ∀ x, ClaimsKept x (claimAtDesk desk.toNat round.toNat stamp.toNat team.toNat x) := by
    intro x
    unfold claimAtDesk
    (repeat' split) <;> exact .of_same (by simp) (by simp)
  exact (hlist.trans (hdesk _)).trans (advance_claimsKept _)

theorem choiceEffect_claimsKept (desk : Desk) (round : Byte) (stamp : Triple) (key team : Byte) (s : State) :
    ClaimsKept s (choiceEffect desk round stamp key team s) := by
  unfold choiceEffect choiceAtDesk choiceAtTable
  (repeat' split) <;> exact .of_same (by simp) (by simp)

theorem tallyEffect_claimsKept (desk : Desk) (page : Byte) (totals : List Half) (s : State) :
    ClaimsKept s (tallyEffect desk page totals s) := by
  unfold tallyEffect
  split <;> exact .of_same (by simp) (by simp)

theorem revealEffect_claimsKept (round key : Byte) (s : State) : ClaimsKept s (revealEffect round key s) := by
  unfold revealEffect
  dsimp only
  (repeat' split) <;> exact .of_same (by simp) (by simp)

theorem rollEffect_claimsKept (id window : Byte) (s : State) : ClaimsKept s (rollEffect id window s) := by
  unfold rollEffect startPolling
  dsimp only
  (repeat' split) <;> exact .of_same (by simp) (by simp)

theorem presentEffect_claimsKept (desk : Desk) (role team id flags : Byte) (s : State) :
    ClaimsKept s (presentEffect desk role team id flags s) := by
  unfold presentEffect addReply
  split <;> exact .of_same (by simp) (by simp)

theorem helloEffect_claimsKept (desk : Desk) (role team : Byte) (tag : Half) (s : State) :
    ClaimsKept s (helloEffect desk role team tag s) := by
  unfold helloEffect
  dsimp only
  split <;> exact .of_same (by simp) (by simp)

/-! ### Presses and commands -/

theorem queueClaim_claimsKept (stamp : Nat) (s : State) : ClaimsKept s (queueClaim stamp s) := by
  unfold queueClaim
  dsimp only
  split <;> exact .of_same (by simp) (by simp)

theorem queueChoice_claimsKept (key stamp : Nat) (s : State) : ClaimsKept s (queueChoice key stamp s) := by
  unfold queueChoice
  dsimp only
  split <;> exact .of_same (by simp) (by simp)

theorem acceptPress_claimsKept (d : DeskInput) (capture : Nat) (s : State) : ClaimsKept s (acceptPress d capture s) := by
  have hinput : ∀ i, ClaimsKept s (setInput d i s) := fun _ => .of_same rfl rfl
  have hjudge : ∀ x, ClaimsKept x (judge d capture x) := by
    intro x
    unfold judge judgeBuzz judgeKey
    dsimp only
    (repeat' split)
    any_goals exact .of_same rfl rfl
    · exact ClaimsKept.trans (t := startHold x) (.of_same rfl rfl) (queueClaim_claimsKept _ _)
    · exact queueChoice_claimsKept _ _ x
  unfold acceptPress
  dsimp only
  split
  · exact (hinput _).trans (hjudge _)
  · exact hinput _

theorem holdEnd_claimsKept (s : State) : ClaimsKept s (holdEnd s) := by
  unfold holdEnd queuePass
  dsimp only
  (repeat' split) <;> exact .of_same (by simp [endHold]) (by simp [endHold])

theorem faultAtController_claimsKept (s : State) : ClaimsKept s (faultAtController s) := by
  unfold faultAtController doubleFault enterRecovering
  dsimp only
  (repeat' split) <;> exact .of_same (by simp) (by simp)

/-- An answer leaves the list what u holds of it. -/
theorem answer_claimsKept (code : Byte) (rc : ReplyCode) (body : List Byte) {s u : State} (h : ClaimsKept s u) :
    ClaimsKept s (answer code rc body u) := h.trans (.of_same (by simp) (by simp))

theorem handCommand_claimsKept (code : Byte) (c : Content) (body : List Byte) (f : State → State) (s : State)
    (hf : ∀ x, ClaimsKept x (f x)) : ClaimsKept s (handCommand code c body f s) := by
  unfold handCommand
  split
  · exact answer_claimsKept _ _ _ (.refl s)
  · have hover : ClaimsKept s (handOver c .cnf s) := .of_same (by simp) (by simp)
    exact answer_claimsKept _ _ _ (hover.trans (hf _))

theorem when_claimsKept {b : Bool} {f : State → State} {s t : State} (h : when b f s = .next t)
    (hf : b = true → ClaimsKept s (f s)) : ClaimsKept s t := by
  cases b with
  | false => rw [when_not_occurs f s rfl] at h; cases h; exact .refl s
  | true => rw [when_occurs f s rfl] at h; cases h; exact (hf rfl).trans (.of_same rfl rfl)

/-- A taking keeps the list sound where its owners do. -/
theorem takes_claimsKept {f : Frame} {eff : State → State} {s t : State} (h : takes f eff s = .next t)
    (he : ∀ x, ClaimsKept x (eff x)) : ClaimsKept s t := by
  refine when_claimsKept h fun _ => ?_
  have hm : ClaimsKept s (markHeard f.desk.toNat f.round.toNat (takenAtLine s)) := .of_same (by simp) (by simp)
  refine ClaimsKept.trans ?_ (.of_same (checkDuplicate_clt _ _ _) (checkDuplicate_answering _ _ _))
  split
  · exact hm.trans (he _)
  · exact hm

theorem command_claimsKept {f : State → State} {s t : State} (h : command f s = .next t) (hf : ClaimsKept s (f s)) :
    ClaimsKept s t := when_claimsKept h fun _ => hf

theorem consoleCommand_claimsKept {code : Byte} {f : State → State} {s t : State}
    (h : consoleCommand code f s = .next t) (hf : ClaimsKept s (f s)) : ClaimsKept s t := by
  refine command_claimsKept h ?_
  split
  · exact hf
  · exact answer_claimsKept _ _ _ (.refl s)

/-- Every command keeps the claim list sound: those that write list or turn by what they do with it, the others by leaving
both alone. -/
theorem exec_claimsKept (c : Instr) (s t : State) (h : exec c s = .next t) : ClaimsKept s t := by
  cases c with
  | powerOnReset | resetN | restart =>
    rcases exec_reset _ s t rfl h with rfl | ⟨_, _, _, _, rfl⟩
    · exact .refl _
    · exact fun _ => claimsSound_empty rfl rfl
  | openTaken desk round block => exact takes_claimsKept h (openEffect_claimsKept round block)
  | closeTaken desk round point => exact takes_claimsKept h (closeEffect_claimsKept round point)
  | verdictTaken desk round turn team outcome check =>
    exact takes_claimsKept h (verdictEffect_claimsKept _ round turn team outcome check)
  | passTaken desk round turn team => exact takes_claimsKept h (passEffect_claimsKept round turn team)
  | claimTaken desk round stamp team => exact takes_claimsKept h (claimEffect_claimsKept desk round stamp team)
  | choiceTaken desk round stamp key team => exact takes_claimsKept h (choiceEffect_claimsKept desk round stamp key team)
  | tallyTaken desk round page a b c d => exact takes_claimsKept h (tallyEffect_claimsKept desk page _)
  | revealTaken desk round key => exact takes_claimsKept h (revealEffect_claimsKept round key)
  | rollTaken desk round id window => exact takes_claimsKept h (rollEffect_claimsKept id window)
  | presentTaken desk round role team id flags =>
    exact takes_claimsKept h (presentEffect_claimsKept desk role team id flags)
  | helloTaken desk round role team tag => exact takes_claimsKept h (helloEffect_claimsKept desk role team tag)
  | armReached => exact when_claimsKept h fun _ => reachArm_claimsKept s
  | windowEnd => exact when_claimsKept h fun _ => endWindow_claimsKept s
  | roundClockSaturation => exact when_claimsKept h fun _ => saturateClock_claimsKept s
  | settleDeadline => exact when_claimsKept h fun hdue => grant_claimsKept s hdue
  | settleOut => exact when_claimsKept h fun _ => .of_same (enterEnded_clt s) (enterEnded_answering s)
  | roundClockTick => exact when_claimsKept h (f := tick) fun _ => .of_same rfl rfl
  | answerClockStep => exact when_claimsKept h (f := answerStep) fun _ => .of_same rfl rfl
  | answerClockExpiry => exact when_claimsKept h fun _ => answerExpiry_claimsKept s
  | pressAccepted d => exact when_claimsKept h fun _ => acceptPress_claimsKept d _ s
  | releaseAccepted d =>
    refine when_claimsKept h fun _ => ?_
    unfold acceptRelease
    dsimp only
    split <;> exact .of_same rfl rfl
  | passHoldEnd => exact when_claimsKept h fun _ => holdEnd_claimsKept s
  | loadingReadEnd =>
    obtain ⟨-, -, hrng, -⟩ := endLoading_frame s
    refine when_claimsKept h fun _ => .of_same ?_ (congrArg Rng.answering hrng)
    unfold endLoading acceptIdentity
    dsimp only
    (repeat' split) <;> simp
  | joiningIdleWaitEnd =>
    refine when_claimsKept h fun _ => ?_
    unfold endJoinWait
    dsimp only
    split <;> exact .of_same (by simp) (by simp)
  | lineIdle => exact when_claimsKept h fun _ => .of_same (reachIdle_clt s) (reachIdle_answering s)
  | bitMismatch cell pulse =>
    refine when_claimsKept h fun _ => ?_
    unfold mismatch
    dsimp only
    split <;> exact .of_same (by simp) (by simp)
  | frameDiscarded cells ack objection =>
    refine when_claimsKept h fun _ => ?_
    unfold discard
    split <;> exact .of_same (by simp) (by simp)
  | lineFault =>
    unfold exec execLineFault at h
    exact when_claimsKept h fun _ =>
      ClaimsKept.trans (t := faultAtLine s) (.of_same rfl rfl) (faultAtController_claimsKept _)
  | recoveryQuietEnd =>
    refine when_claimsKept h fun _ => ?_
    unfold leaveRecovering
    dsimp only
    split <;> exact .of_same (by simp) (by simp)
  | arbitrationLost | arbitrationWon | slotsReached | recoveryDeadline =>
    simp only [exec, execArbitrationLost, execArbitrationWon, execSlotsReached, execRecoveryDeadline] at h
    refine when_claimsKept h fun _ => .of_same ?_ ?_ <;>
      simp [loseArbitration, winArbitration, reachSlots, recoveryFailed]
  | lineLevelChange change =>
    cases change with
    | toDominant ns => exact when_claimsKept h (f := lineDominant ns) fun _ => .of_same rfl rfl
    | toRecessive ns => exact when_claimsKept h (f := lineRecessive ns) fun _ => .of_same rfl rfl
  | blinkBaseHalfPeriod => cases h; exact .of_same rfl rfl
  | inputFallingEdge d => exact when_claimsKept h (f := fallInput d) fun _ => .of_same rfl rfl
  | inputRisingEdge d => exact when_claimsKept h (f := riseInput d) fun _ => .of_same rfl rfl
  | jumpLockEnd => exact when_claimsKept h fun _ => .refl s
  | rollWindowExpiry => exact when_claimsKept h (f := endRoll) fun _ => .of_same rfl rfl
  | startMarkRecognized => exact when_claimsKept h (f := beginReceiving) fun _ => .of_same rfl rfl
  | objectionRunBegun => exact when_claimsKept h (f := leaveFrame) fun _ => .of_same rfl rfl
  | unknownCommand => exact when_claimsKept h fun _ => answer_claimsKept _ _ _ (.refl s)
  | storeWriteEnd | faultMemoryExpiry | droppedFrameFlashEnd | displayUpdateEnd | transferStart | transferEndNoCommand =>
    simp only [exec, execStoreWriteEnd, execFaultMemoryExpiry, execDroppedFrameFlashEnd, execDisplayUpdateEnd,
      execTransferStart, execTransferEndNoCommand] at h
    exact when_claimsKept h fun _ => .of_same rfl rfl
  | nop | status | readScores | readClaims | readChoices | readPresence | readRollReport | readFaults | clearFaults
  | readEvents | clearEvents | setEventMask =>
    simp only [exec, execNop, execStatus, execReadScores, execReadClaims, execReadChoices, execReadPresence,
      execReadRollReport, execReadFaults, execClearFaults, execReadEvents, execClearEvents, execSetEventMask] at h
    exact command_claimsKept h (.of_same rfl rfl)
  | storeRead row =>
    refine command_claimsKept h ?_
    unfold storeRead
    (repeat' split) <;> exact .of_same rfl rfl
  | storeWrite row value setup =>
    refine command_claimsKept h ?_
    unfold storeWrite
    (repeat' split) <;> exact .of_same rfl rfl
  | openRound block =>
    refine consoleCommand_claimsKept h ?_
    unfold openRound
    split
    · exact handCommand_claimsKept _ _ _ _ s fun _ => .of_same rfl rfl
    · exact answer_claimsKept _ _ _ (.refl s)
  | closeRound =>
    refine consoleCommand_claimsKept h ?_
    unfold closeRound
    split
    · exact handCommand_claimsKept _ _ _ _ s .refl
    · exact answer_claimsKept _ _ _ (.refl s)
  | verdictCommand outcome expected =>
    refine consoleCommand_claimsKept h ?_
    unfold hostVerdict
    split
    · exact answer_claimsKept _ _ _ (.refl s)
    · exact answer_claimsKept _ _ _ (.refl s)
    · refine handCommand_claimsKept _ _ _ _ s fun x => ?_
      unfold hostVerdictHanded
      split <;> exact .of_same rfl rfl
  | revealCommand key =>
    refine consoleCommand_claimsKept h ?_
    unfold revealRound
    (repeat' split)
    · exact answer_claimsKept _ _ _ (.refl s)
    · exact handCommand_claimsKept _ _ _ _ s .refl
    · exact answer_claimsKept _ _ _ (.refl s)
  | rollCall window =>
    refine consoleCommand_claimsKept h ?_
    unfold rollCall
    split
    · exact answer_claimsKept _ _ _ (.refl s)
    · exact handCommand_claimsKept _ _ _ _ s fun _ => .of_same rfl rfl
  | setTotal team value =>
    refine consoleCommand_claimsKept h ?_
    unfold setTotal correct
    split <;> exact answer_claimsKept _ _ _ (.of_same (by simp) (by simp))
  | adjust team delta =>
    refine consoleCommand_claimsKept h ?_
    unfold adjust correct
    split <;> exact answer_claimsKept _ _ _ (.of_same (by simp) (by simp))
  | sendTally => exact consoleCommand_claimsKept h (answer_claimsKept _ _ _ (.of_same (by simp) (by simp)))
  | clearRollReport =>
    unfold exec execClearRollReport at h
    exact consoleCommand_claimsKept h (.of_same rfl rfl)

/-- Settles O5: a step is a command, each keeping the claim list sound (`exec_claimsKept`), or the ageing of an edge. -/
theorem claimsStaySound : Obligations.ClaimsStaySound := by
  intro s t hs h
  rcases step_cases s t h with rfl | ⟨c, rest, hc⟩
  · exact hs
  · exact exec_claimsKept c (s.withPending rest) t hc hs

end Sys2Proof.Machine

namespace Sys2Proof.Machine

open Sys2Proof.Safety

/-! ### The rows SETTLE_DEADLINE and SETTLE_OUT (R84, R92, R95, R107) -/

theorem granted_refresh {m t : State} (h : Granted m t) : Granted m (refresh t) := h

/-- A grant writes round context and claim list, and raises TURN_GRANTED (R84, R107). -/
theorem grant_stepFrame (s : State) (h : grantDue s = true) :
    StepFrame [.rng, .clt] Event.turnGranted.flag s (refresh (grant s)) := by
  refine stepFrame_refresh _ _ s _ (fun b hb h1 h2 => ?_) (grant_pnl s) (grant_spec s h).2 (grant_pending s)
  cases b <;> simp_all [Block.same]

/-- The entry to ENDED writes clock, round context and what withdrawals reach, and raises ROUND_ENDED (R95). -/
theorem enterEnded_stepFrame (s : State) (hq : QueueSound s) :
    StepFrame [.lcu, .rck, .icu, .rng] Event.roundEnded.flag s (refresh (enterEnded s)) := by
  obtain ⟨hsorted, hwaits⟩ := withdrawable s hq
  obtain ⟨hsuu, hcnf, hpnl, hfree⟩ := enterEnded_keeps s hsorted hwaits
  obtain ⟨-, hclt, hcmp⟩ := enterEnded_spec s hsorted hwaits
  refine stepFrame_refresh _ _ s _ (fun b hb h1 h2 => ?_) hpnl hcmp (enterEnded_pending s)
  cases b <;> simp_all [Block.same]

/-- Settles O19: the conditions spelled out, and the rows by `grant_spec` and `enterEnded_spec`. -/
theorem grantsAndSettlingOut : Obligations.GrantsAndSettlingOut := by
  refine ⟨fun s => ⟨grantDue_iff s, settleOutDue_iff s, closingDue_iff s⟩, fun s =>
    ⟨fun e rest hphase hformat hnone hhead hdue => ?_, fun hq hphase hformat hclosed hnone hdue => ?_⟩⟩
  · have h : grantDue s = true := (grantDue_iff s).mpr ⟨hphase, hformat, hnone, e, rest, hhead, hdue⟩
    exact ⟨_, when_occurs grant s h, granted_refresh (grant_spec s h).1, grant_stepFrame s h⟩
  · have h : settleOutDue s = true := (settleOutDue_iff s).mpr ⟨hphase, hformat, hclosed, hnone, hdue⟩
    obtain ⟨hsorted, hwaits⟩ := withdrawable s hq
    have hround := roundEnds_congr ⟨rfl, rfl, rfl, rfl, rfl⟩ (roundSame_refresh _) (enterEnded_spec s hsorted hwaits).1
    exact ⟨_, when_occurs enterEnded s h, hround, enterEnded_stepFrame s hq⟩

end Sys2Proof.Machine

namespace Sys2Proof.Machine

open Sys2Proof.Safety

/-! ### The answer clock (R85, R166) -/

/-- The answer clock run out: stopped, the phase HELD (R85). -/
def clockOut (s : State) : State := s.withRng { s.rng with answerRunning := false, phase := .held }

/-- The TIMEOUT VERDICT that a console hands for team's turn (R166). -/
def timeoutOf (team : Nat) (s : State) : Content := .verdict (byteOf s.rng.turn) (byteOf team) .timeout none

theorem handTimeout_queued (team : Nat) (s : State) (ht : s.rng.answering = some team)
    (h : handAnswer (timeoutOf team s) s = .queued) :
    handTimeout s =
      (handOver (timeoutOf team s) .cnf s).withCnf
        { s.cnf with verdictPending := some s.rng.turn, verdictKind := .automatic } := by
  unfold timeoutOf at h ⊢
  simp only [handTimeout, ht, h, handOver_cnf]

theorem handTimeout_shut (team : Nat) (s : State) (ht : s.rng.answering = some team) (h : s.lcu.tx.shut = true) :
    handTimeout s = raise .txDropped s := by
  obtain ⟨ha, hover⟩ := handOver_shut (timeoutOf team s) .cnf s h
  unfold timeoutOf at ha hover
  simp only [handTimeout, ht, ha, hover]

/-- A frame's content reads nothing of the answer clock or the phase (R40, R168). -/
theorem fillContent_clockOut (s : State) (c : Content) : fillContent (clockOut s) c = fillContent s c := by
  cases c with
  | verdict turn team o check => cases o <;> rfl
  | _ => rfl

theorem begun_clockOut (s : State) (f : QFrame) : begun (clockOut s) f = begun s f := by
  unfold begun
  rw [fillContent_clockOut]
  rfl

/-- So a hand-over after the expiry queues what it would have queued before. -/
theorem queued_clockOut {c : Content} {h : Hander} {s t : State} (hq : Queued c h (clockOut s) t) : Queued c h s t := by
  have hoffered : ∀ q, offered (clockOut s) q = offered s q := fun q => by
    cases q with
    | nil => rfl
    | cons f rest => exact congrArg (· :: rest) (begun_clockOut s f)
  unfold Queued at hq ⊢
  simp only [hoffered] at hq
  exact hq

theorem answerExpiry_elsewhere (s : State) (h : s.suu.identity.role ≠ .console) : answerExpiry s = clockOut s :=
  if_neg fun hc => h ((consoleStation_iff (clockOut s)).mp hc).1

theorem answerExpiry_console (s : State) (hrole : s.suu.identity.role = .console)
    (hstart : s.suu.startUp = .joining ∨ s.suu.startUp = .joined) : answerExpiry s = handTimeout (clockOut s) :=
  if_pos ((consoleStation_iff (clockOut s)).mpr ⟨hrole, hstart⟩)

/-- Settles O49: the step counts down, the expiry stops the clock, and a console's TIMEOUT is dropped or queued. -/
theorem answerClockRows : Obligations.AnswerClockRows := by
  intro s
  refine ⟨fun hrun hpos => ?_, fun hphase hrun hzero => ?_⟩
  · refine ⟨_, when_occurs answerStep s (by simp [hrun, hpos]), rfl,
      stepFrame_of _ 0 s _ (fun b hb h1 h2 => ?_) (fun _ => rfl) (fun _ => rfl) BitVec.or_zero.symm rfl⟩
    cases b <;> simp_all [Block.same, answerStep]
  have hexec : exec .answerClockExpiry s = .next (refresh (answerExpiry s)) :=
    when_occurs answerExpiry s (by simp [hphase, hrun, hzero])
  refine ⟨fun hrole => ⟨_, hexec, ?_⟩, fun team hrole hstart hteam => ⟨fun hx => ⟨_, hexec, ?_⟩,
    fun h1 h2 hempty => ⟨_, hexec, ?_⟩⟩⟩
  · rw [answerExpiry_elsewhere s hrole]
    refine ⟨rfl, stepFrame_of _ 0 s _ (fun b hb h1 h2 => ?_) (fun _ => rfl) (fun _ => rfl) BitVec.or_zero.symm rfl⟩
    cases b <;> simp_all [Block.same, clockOut]
  · rw [answerExpiry_console s hrole hstart, handTimeout_shut team (clockOut s) hteam ((shut_iff _).mpr hx)]
    refine ⟨rfl, stepFrame_of _ _ s _ (fun b hb h1 h2 => ?_) (fun _ => rfl) (fun _ => rfl) rfl rfl⟩
    cases b <;> simp_all [Block.same, clockOut]
  · have hwork : s.suu.startUp.atWork = true := by simpa [atWork_eq] using hstart
    have ha : handAnswer (timeoutOf team (clockOut s)) (clockOut s) = .queued :=
      handAnswer_queued (timeoutOf team (clockOut s)) (clockOut s) (not_shut h1 h2) hwork
        (by rw [show (clockOut s).suu = s.suu from rfl, hrole]; rfl) hempty
    obtain ⟨hq, l, heq⟩ := handOver_queued (timeoutOf team (clockOut s)) .cnf (clockOut s) ha
    rw [answerExpiry_console s hrole hstart, handTimeout_queued team (clockOut s) hteam ha]
    rw [heq] at hq ⊢
    refine ⟨rfl, queued_clockOut hq, rfl,
      stepFrame_of _ 0 s _ (fun b hb h1 h2 => ?_) (fun _ => rfl) (fun _ => rfl) BitVec.or_zero.symm rfl⟩
    cases b <;> simp_all [Block.same, clockOut]

end Sys2Proof.Machine

namespace Sys2Proof.Machine

open Sys2Proof.Safety

/-! ### Records and ranks (R155, R156) -/

/-- A record without its rank, which the other records give it (R156). -/
def unranked (x : TeamRec) : TeamRec := { x with rank := 0 }

theorem rankOf_unranked (records : List TeamRec) (x : TeamRec) :
    rankOf (records.map unranked) (unranked x) = rankOf records x := by
  unfold rankOf
  rw [List.countP_map]
  rfl

/-- Ranks worked out anew do not depend on those that stood. -/
theorem ranked_unranked (records : List TeamRec) : ranked (records.map unranked) = ranked records := by
  unfold ranked
  rw [List.map_map]
  refine List.map_congr_left fun x _ => ?_
  simp only [Function.comp, rankOf_unranked]
  rfl

theorem unranked_ranked (records : List TeamRec) : (ranked records).map unranked = records.map unranked := by
  unfold ranked
  rw [List.map_map]
  rfl

/-- A record written twice with the ranks worked out between: the second writing stands. -/
theorem ranked_set_set (records : List TeamRec) (i : Nat) (x y z : TeamRec) (h : unranked y = unranked z) :
    ranked ((ranked (records.set i x)).set i y) = ranked (records.set i z) := by
  rw [← ranked_unranked, ← ranked_unranked (records.set i z), List.map_set, List.map_set, unranked_ranked, List.map_set,
    List.set_set, h]

theorem ranked_mem {records : List TeamRec} {x : TeamRec} (h : x ∈ ranked records) :
    x.rank = rankOf (ranked records) x ∧ ∃ y ∈ records, unranked x = unranked y := by
  obtain ⟨y, hy, rfl⟩ := List.mem_map.mp h
  refine ⟨?_, y, hy, rfl⟩
  rw [← rankOf_unranked (ranked records), unranked_ranked]
  exact (rankOf_unranked records y).symm

/-- Records in range, seated as the presence table has it, are a sound scoreboard once they are ranked (R139, R155, R156). -/
theorem scoresSound_ranked (records : List TeamRec) (s : State) (hlen : records.length = 16)
    (hrange : ∀ x ∈ records, RecordInRange x)
    (hseated : records.map TeamRec.seated = (List.range 16).map fun i => s.prs.seated.contains (i + 1))
    (hs : s.scu.records = ranked records) : ScoresSound s := by
  unfold ScoresSound
  rw [hs]
  refine ⟨by simp [ranked, hlen], fun x hx => ?_, ?_, fun x hx => (ranked_mem hx).1⟩
  · obtain ⟨-, y, hy, hxy⟩ := ranked_mem hx
    have hy' := hrange y hy
    have h1 := congrArg TeamRec.total hxy
    have h2 := congrArg TeamRec.rights hxy
    have h3 := congrArg TeamRec.wrongs hxy
    simp only [unranked] at h1 h2 h3
    unfold RecordInRange
    rw [h1, h2, h3]
    exact hy'
  · rw [← hseated, ranked, List.map_map]
    rfl

/-! ### A turn scored (R139, R140, R144) -/

theorem turnDelta_eq (r : Rng) (turn : Nat) (o : TurnOutcome) : turnDelta r turn o = deltaOf r turn o := by cases o <;> rfl

theorem scoreRecord_eq (r : Rng) (turn : Nat) (o : TurnOutcome) (x : TeamRec) :
    scoreRecord r.noneg (turnDelta r turn o) o x = scoredRecord r turn o x := by
  rw [turnDelta_eq]
  cases o <;> simp [scoreRecord, scoredRecord, countOutcome, countUp, Config.countMax]

theorem scoredRecord_inRange (r : Rng) (turn : Nat) (o : TurnOutcome) (x : TeamRec) (h : RecordInRange x) :
    RecordInRange (scoredRecord r turn o x) := by
  obtain ⟨-, -, hrights, hwrongs⟩ := h
  simp only [RecordInRange, scoredRecord, applyDelta, saturate, Config.totalMax, Config.countMax] at *
  refine ⟨by omega, by omega, ?_, ?_⟩ <;> split <;> omega

/-- A scored turn as one record: the scoreboard's other teams keep theirs (R142, R145). -/
theorem scoreTurn_eq (turn team : Nat) (o : TurnOutcome) (s : State) (h : s.scu.records.length = 16) (h1 : 1 ≤ team)
    (h2 : team ≤ 16) :
    scoreTurn turn team o s =
      (s.withScu ⟨ranked (s.scu.records.set (team - 1) (scoredRecord s.rng turn o (s.scu.team team)))⟩).withCmp
        { s.cmp with
          flags :=
            s.cmp.flags |||
              raisedIf ((scoredRecord s.rng turn o (s.scu.team team)).figures != (s.scu.team team).figures)
                .scoreChanged } := by
  unfold scoreTurn
  rw [modifyTeam_eq s h _ team h1 h2, scoreRecord_eq, commitScores_eq, map_set_bne _ s h _ team h1 h2]

theorem scoreTurn_sound (turn team : Nat) (o : TurnOutcome) (s : State) (h : ScoresSound s) (h1 : 1 ≤ team)
    (h2 : team ≤ 16) : ScoresSound (scoreTurn turn team o s) := by
  obtain ⟨hlen, hrange, hseated, -⟩ := h
  obtain ⟨hi, hteam⟩ := team_place s hlen team h1 h2
  rw [scoreTurn_eq turn team o s hlen h1 h2]
  refine scoresSound_ranked _ _ (by simp [hlen]) (fun x hx => ?_) ?_ rfl
  · rcases List.mem_or_eq_of_mem_set hx with hx | rfl
    · exact hrange x hx
    · exact scoredRecord_inRange _ _ _ _ (hteam ▸ hrange _ (List.getElem_mem hi))
  · have hsame : (scoredRecord s.rng turn o (s.scu.team team)).seated =
        (s.scu.records.map TeamRec.seated)[team - 1]'(by simpa using hi) := by
      rw [List.getElem_map, ← hteam]
      rfl
    rw [List.map_set, hsame, List.set_getElem_self]
    exact hseated

/-- A turn's record once the console's figure has been compared (R139, R150 to R152). -/
def finalRecord (turn team : Nat) (o : TurnOutcome) (check : Half) (s : State) : TeamRec :=
  if s.suu.identity.role = .console then scoredRecord s.rng turn o (s.scu.team team)
  else { scoredRecord s.rng turn o (s.scu.team team) with total := checkOf check, unconfirmed := false }

/-- The team's own record after its turn, its rank apart. -/
theorem scoreTurn_team (turn team : Nat) (o : TurnOutcome) (s : State) (h : s.scu.records.length = 16) (h1 : 1 ≤ team)
    (h2 : team ≤ 16) :
    ∃ k, (scoreTurn turn team o s).scu.team team = { scoredRecord s.rng turn o (s.scu.team team) with rank := k } := by
  obtain ⟨hi, -⟩ := team_place s h team h1 h2
  rw [scoreTurn_eq turn team o s h h1 h2]
  exact ⟨_, by simp [Scu.team, ranked, List.getD, hi]; rfl⟩

theorem checkedRecord_scored (turn team : Nat) (o : TurnOutcome) (check : Half) (s t : State) (k : Nat)
    (hsuu : t.suu = s.suu) (ht : t.scu.team team = { scoredRecord s.rng turn o (s.scu.team team) with rank := k }) :
    checkedRecord team check t = { finalRecord turn team o check s with rank := k } := by
  unfold checkedRecord finalRecord
  rw [hsuu, ht]
  split <;> rfl

/-- A turn scored and its check total treated, as one record (R145, R150). -/
theorem scored_checked_eq (turn team : Nat) (o : TurnOutcome) (check : Half) (s : State) (h : ScoresSound s) (h1 : 1 ≤ team)
    (h2 : team ≤ 16) :
    let scored := scoredRecord s.rng turn o (s.scu.team team)
    let final := finalRecord turn team o check s
    takeCheckTotal team check.toInt (scoreTurn turn team o s) =
      (s.withScu ⟨ranked (s.scu.records.set (team - 1) final)⟩).withCmp
        { s.cmp with
          flags :=
            s.cmp.flags |||
              (raisedIf (scored.figures != (s.scu.team team).figures || final.total != scored.total) .scoreChanged |||
                raisedIf (final.total != scored.total) .diverged) } := by
  intro scored final
  obtain ⟨k, hteam⟩ := scoreTurn_team turn team o s h.1 h1 h2
  have hchecked := checkedRecord_scored turn team o check s _ k (scoreTurn_suu turn team o s) hteam
  rw [takeCheckTotal_eq team check _ (scoreTurn_sound turn team o s h h1 h2) h1 h2, hchecked, hteam, ← raisedIf_or,
    scoreTurn_eq turn team o s h.1 h1 h2]
  simp only [State.withScu, State.withCmp, BitVec.or_assoc]
  rw [ranked_set_set _ _ _ { finalRecord turn team o check s with rank := k } final rfl]

end Sys2Proof.Machine

namespace Sys2Proof.Machine

open Sys2Proof.Safety

/-! ### VERDICT in full (R89, R90, R109, R110) -/

/-- The conditions of a full handling (R89). -/
theorem verdictHandling_applies (r : Rng) (round turn team code : Nat) (o : TurnOutcome) (h1 : 1 ≤ team) (h2 : team ≤ 16)
    (hround : round = r.round) (hformat : r.format = .buzz) (hu : r.phase ≠ .unsynced) (hr : r.phase ≠ .reading)
    (h3 : 1 ≤ turn) (h4 : turn ≤ 16) (ho : outcomeOfCode code = some o)
    (hturn : r.turn < turn ∨ r.turn = turn ∧ r.answering ≠ none) :
    verdictHandling r round turn team code = .full o := by
  have hteam : ¬isTeam team = false := by rw [(isTeam_iff team).mpr ⟨h1, h2⟩]; simp
  have hlate : ¬(turn < r.turn ∨ turn = r.turn ∧ r.answering = none) := by
    rintro (hlt | ⟨heq, hnone⟩)
    · omega
    · exact hturn.elim (by omega) fun h => h.2 hnone
  unfold verdictHandling
  rw [if_neg hteam, if_neg (not_or.mpr ⟨hu, not_not.mpr hround⟩), if_neg (not_or.mpr ⟨by simp [hformat], hr⟩),
    if_neg (by omega), if_neg hlate, ho]

/-- Is the claim list in step with a verdict on this turn of this team (R110)? -/
abbrev InStep (turn team : Nat) (m : State) : Prop := m.rng.answering = some team ∧ m.rng.turn = turn

theorem inStep_iff (turn team : Nat) (m : State) : inStep m.rng turn team = true ↔ InStep turn team m := by
  simp [inStep]

/-- The list once the verdict's turn has ended: in step or aligned, the team's entry closed (R109, R110). -/
def verdictEntries (turn team : Nat) (o : TurnOutcome) (m : State) : List Entry :=
  (if InStep turn team m then m.clt.entries else alignEntries m.rng m.rck.count team m.clt.entries).map fun e =>
    if e.team = team then closedEntry o e else e

theorem endEntry_closed (team : Nat) (o : TurnOutcome) (es : List Entry) :
    endEntry team o es = es.map fun e => if e.team = team then closedEntry o e else e := by cases o <;> rfl

/-- The verdict's turn ended: list, turn and answer clock, TURN_ENDED, and DIVERGED of a list out of step (R90, R110). -/
def turnJudged (turn team : Nat) (o : TurnOutcome) (m : State) : State :=
  ((m.withClt ⟨verdictEntries turn team o m⟩).withRng
    { m.rng with turn := turn, answering := none, answerClock := 0, answerRunning := false }).withCmp
      { m.cmp with
        flags := m.cmp.flags ||| (raisedIf (!decide (InStep turn team m)) .diverged ||| Event.turnEnded.flag) }

theorem closeTurn_aligned (turn team : Nat) (o : TurnOutcome) (m : State) :
    closeTurn team o ((align turn team m).withRng { (align turn team m).rng with turn := turn, answering := some team }) =
      turnJudged turn team o m := by
  unfold turnJudged verdictEntries align closeTurn
  rw [← endEntry_closed]
  by_cases h : InStep turn team m
  · rw [if_pos ((inStep_iff turn team m).mpr h), if_pos h]
    simp [h, raise, raisedIf, State.withRng, State.withClt, State.withCmp]
  · rw [if_neg fun hn => h ((inStep_iff turn team m).mp hn), if_neg h]
    simp [h, raise, raisedIf, State.withRng, State.withClt, State.withCmp, BitVec.or_assoc]

/-- The flags of a turn judged (R110, R142, R150). -/
def verdictFlags (turn team : Nat) (o : TurnOutcome) (check : Half) (m : State) : BitVec 14 :=
  let x := m.scu.team team
  let scored := scoredRecord m.rng turn o x
  let final := finalRecord turn team o check m
  Event.turnEnded.flag ||| raisedIf (!decide (InStep turn team m)) .diverged |||
    raisedIf (scored.figures != x.figures || final.total != scored.total) .scoreChanged |||
    raisedIf (final.total != scored.total) .diverged

/-- Does a verdict end the round (R87, R91)? -/
abbrev RoundEnding (turn : Nat) (o : TurnOutcome) : Prop := o = .right ∨ o = .void ∨ turn = 16

theorem endsRound_iff (turn : Nat) (o : TurnOutcome) (h : turn ≤ 16) : endsRound o turn = true ↔ RoundEnding turn o := by
  have hturn : Config.maxTurn ≤ turn ↔ turn = 16 := by
    simp only [Config.maxTurn]
    omega
  simp [endsRound, hturn, or_assoc]

/-- What a verdict in full leaves before the round's end or what follows: list, round, scoreboard and flags. -/
def verdictLeft (turn team : Nat) (o : TurnOutcome) (check : Half) (m : State) : State :=
  (((m.withClt ⟨verdictEntries turn team o m⟩).withRng
    { m.rng with
      turn := turn, answering := none, answerClock := 0, answerRunning := false
      phase := if m.rng.phase = .ended ∨ RoundEnding turn o then m.rng.phase else .live }).withScu
        ⟨ranked (m.scu.records.set (team - 1) (finalRecord turn team o check m))⟩).withCmp
          { m.cmp with flags := m.cmp.flags ||| verdictFlags turn team o check m }

theorem scoredRecord_judged (turn team t : Nat) (o p : TurnOutcome) (m : State) (x : TeamRec) :
    scoredRecord (turnJudged turn team o m).rng t p x = scoredRecord m.rng t p x := by cases p <;> rfl

/-- The turn judged, scored and compared, its phase aside, as one record. -/
theorem scored_judged (turn team : Nat) (o : TurnOutcome) (check : Half) (m : State) (h : ScoresSound m) (h1 : 1 ≤ team)
    (h2 : team ≤ 16) :
    takeCheckTotal team check.toInt (scoreTurn turn team o (turnJudged turn team o m)) =
      (verdictLeft turn team o check m).withRng
        { m.rng with turn := turn, answering := none, answerClock := 0, answerRunning := false } := by
  have hfinal : finalRecord turn team o check (turnJudged turn team o m) = finalRecord turn team o check m := by
    unfold finalRecord
    rw [scoredRecord_judged]
    rfl
  rw [scored_checked_eq turn team o check (turnJudged turn team o m) h h1 h2, hfinal, scoredRecord_judged]
  unfold turnJudged verdictLeft verdictFlags
  simp only [State.withRng, State.withClt, State.withCmp, State.withScu]
  congr 2
  ac_rfl

/-- A verdict in full: the round ends with it, or its turn alone does (R87). -/
theorem fullVerdict_eq (turn team : Nat) (o : TurnOutcome) (check : Half) (m : State) (h : ScoresSound m) (h1 : 1 ≤ team)
    (h2 : team ≤ 16) (h3 : turn ≤ 16) :
    fullVerdict turn team o check.toInt m =
      if m.rng.phase ≠ .ended ∧ RoundEnding turn o then enterEnded (verdictLeft turn team o check m)
      else verdictLeft turn team o check m := by
  have hends := endsRound_iff turn o h3
  have hfull : fullVerdict turn team o check.toInt m =
      phaseAfterTurn o ((verdictLeft turn team o check m).withRng
        { m.rng with turn := turn, answering := none, answerClock := 0, answerRunning := false }) := by
    rw [← scored_judged turn team o check m h h1 h2, ← closeTurn_aligned]
    rfl
  rw [hfull]
  unfold phaseAfterTurn
  simp only [State.withRng_rng, hends]
  by_cases hp : m.rng.phase = .ended
  · rw [if_pos hp, if_neg fun hn => hn.1 hp]
    simp [verdictLeft, hp, State.withRng, State.withClt, State.withCmp, State.withScu]
  · rw [if_neg hp]
    by_cases he : RoundEnding turn o
    · rw [if_pos he, if_pos ⟨hp, he⟩]
      simp only [verdictLeft, he, or_true, if_true]
      rfl
    · rw [if_neg he, if_neg fun hn => he hn.2]
      simp only [verdictLeft, hp, he, or_self, if_false]
      rfl

/-- The console's marker is cleared beside a round's end as before it: a console has nothing of its own to withdraw. -/
theorem enterEnded_withCnf (m : State) (x : Cnf) (hq : QueueSound m)
    (h : m.suu.identity.role = .console ∨ x = m.cnf) : (enterEnded m).withCnf x = enterEnded (m.withCnf x) := by
  rcases h with h | rfl
  · have hnone := console_noOwnFrames m hq h
    rw [enterEnded_noOwn m hnone, enterEnded_noOwn (m.withCnf x) hnone]
    rfl
  · obtain ⟨hsorted, hwaits⟩ := withdrawable m hq
    have hsame : (enterEnded m).withCnf m.cnf = enterEnded m := by
      rw [← (enterEnded_keeps m hsorted hwaits).2.1]
      rfl
    rw [hsame]
    rfl

theorem cnfTaken_cases (s : State) : s.suu.identity.role = .console ∨ cnfTaken s = s.cnf := by
  unfold cnfTaken
  split
  case isTrue h => exact .inl h.1
  case isFalse => exact .inr rfl

/-- What a verdict in full leaves with the console's marker cleared (R165). -/
def verdictTakenLeft (turn team : Nat) (o : TurnOutcome) (check : Half) (s m : State) : State :=
  (verdictLeft turn team o check m).withCnf (cnfTaken s)

/-- The console's marker, the round's end and what follows, after a verdict in full on m (R87, R90, R165). -/
theorem fullVerdict_follows (turn team : Nat) (o : TurnOutcome) (check : Half) (s m : State) (hq : QueueSound m)
    (h : ScoresSound m) (hwork : s.suu.startUp.atWork = true) (hsuu : m.suu = s.suu) (hcnf : m.cnf = s.cnf)
    (h1 : 1 ≤ team) (h2 : team ≤ 16) (h3 : turn ≤ 16) :
    advance (verdictAtConsole (ownAttempt s) (fullVerdict turn team o check.toInt m)) =
      if m.rng.phase ≠ .ended ∧ RoundEnding turn o then enterEnded (verdictTakenLeft turn team o check s m)
      else advance (verdictTakenLeft turn team o check s m) := by
  have hleft : QueueSound (verdictLeft turn team o check m) := hq
  rw [fullVerdict_eq turn team o check m h h1 h2 h3]
  split
  case isTrue =>
    obtain ⟨hsorted, hwaits⟩ := withdrawable _ hleft
    obtain ⟨ksuu, kcnf, -⟩ := enterEnded_keeps (verdictLeft turn team o check m) hsorted hwaits
    rw [verdictAtConsole_eq s _ hwork (ksuu.trans hsuu) (kcnf.trans hcnf), enterEnded_withCnf _ _ hleft ?_]
    · obtain ⟨⟨hrng, -⟩, -⟩ := enterEnded_spec (verdictTakenLeft turn team o check s m) hsorted hwaits
      exact advance_ended _ (congrArg Rng.phase hrng)
    · exact (cnfTaken_cases s).imp (fun hr => (congrArg (·.identity.role) hsuu).trans hr) fun hc => hc.trans hcnf.symm
  case isFalse =>
    rw [verdictAtConsole_eq s (verdictLeft turn team o check m) hwork hsuu hcnf]
    rfl

theorem verdictTakenLeft_same (turn team : Nat) (o : TurnOutcome) (check : Half) (f : Frame) (s : State) (b : Block)
    (hb : b ∉ [Block.lif, .prs, .scu, .cnf] ++ roundBlocks) (h1 : b ≠ .pnl) (h2 : b ≠ .cmp) :
    b.same s (verdictTakenLeft turn team o check s (takenHeard f s)) := by
  cases b with
  | suu | sto | cht | free => rfl
  | pnl => exact absurd rfl h1
  | cmp => exact absurd rfl h2
  | lif | lcu | rck | icu | rng | clt | scu | cnf | prs => simp at hb

/-- Settles O36: what the verdict leaves is `verdictTakenLeft`, then the round's end or what follows. -/
theorem verdictInFull : Obligations.VerdictInFull := by
  intro round turn team outcome check o s f h ht hq hsc h1 h2 hround hformat hu hr h3 h4 ho hturn steps entries x scored final
    ends m flags
  have htaken := takes_taken .verdict f (verdictEffect (ownAttempt s) round turn team outcome check) s h ht hq
    plainPlace_verdict rfl fun u => (verdictEffect_keptSound _ round turn team outcome check u).identity
  obtain ⟨hsound, -⟩ := takenHeard_sound .verdict f s h ht hq plainPlace_verdict
  let left := verdictTakenLeft turn.toNat team.toNat o check s (takenHeard f s)
  have heff : verdictEffect (ownAttempt s) round turn team outcome check (takenHeard f s) =
      if s.rng.phase ≠ .ended ∧ ends then enterEnded left else advance left := by
    unfold verdictEffect
    rw [verdictHandling_applies (takenHeard f s).rng _ _ _ _ o h1 h2 hround hformat hu hr h3 h4 ho hturn]
    exact fullVerdict_follows turn.toNat team.toNat o check s (takenHeard f s) hsound hsc (canTake_work h.1) rfl rfl h1 h2 h4
  have hsame : RoundSame left m := ⟨rfl, rfl, rfl, rfl, rfl⟩
  have hleads : Leads ([.lif, .prs, .scu, .cnf] ++ roundBlocks) flags s left := by
    obtain ⟨hsorted, hwaits⟩ := withdrawable left hsound
    have hflags : flags = heardFlag f s ||| verdictFlags turn.toNat team.toNat o check (takenHeard f s) := by
      simp only [flags, verdictFlags, BitVec.or_assoc]
      rfl
    refine ⟨hsorted, hwaits, fun b hb => List.mem_append_right _ hb, verdictTakenLeft_same _ _ o check f s, rfl, ?_, rfl⟩
    rw [hflags, ← BitVec.or_assoc]
    rfl
  rw [heff] at htaken
  refine ⟨_, htaken, ?_, ?_, ?_, fun hp => ?_, fun hp he => ?_, fun hp he => ?_⟩
  · refine received_of f s _ ?_ ?_ <;> split <;> simp <;> rfl
  · split <;> simp <;> rfl
  · rw [refresh_cnf]
    split
    · exact (enterEnded_keeps left hleads.sorted hleads.waits).2.1
    · exact (advance_keeps left hleads.sorted hleads.waits).2.1
  · rw [if_neg fun hn => hn.1 hp, advance_ended left ?_]
    · exact ⟨hsame, stepFrame_refresh _ _ s left (fun b hb k1 k2 => same_refresh b s left k1 k2 (hleads.others b hb k1 k2))
        hleads.pnl hleads.cmp hleads.pending⟩
    · show (if s.rng.phase = .ended ∨ ends then s.rng.phase else .live) = _
      rw [if_pos (.inl hp), hp]
  · rw [if_pos ⟨hp, he⟩]
    exact hleads.ended hsame
  · rw [if_neg fun hn => he hn.2]
    exact hleads.follows hsame

end Sys2Proof.Machine

namespace Sys2Proof.Machine

open Sys2Proof.Safety

/-! ### The invariants at reset (R54, R72, R73, R98, R138, R187, R196) -/

theorem reset_scoresSound : ScoresSound State.reset := by
  have hrecords : ∀ x ∈ State.reset.scu.records, x = TeamRec.reset := fun x hx => List.eq_of_mem_replicate hx
  refine ⟨rfl, fun x hx => ?_, rfl, fun x hx => ?_⟩
  · rw [hrecords x hx]
    decide
  · rw [hrecords x hx]
    rfl

theorem reset_queueSound : QueueSound State.reset := by
  have hqueue : State.reset.lcu.queue = [] := rfl
  have htx : State.reset.lcu.tx = .idle := rfl
  refine ⟨.nil, fun f hf => absurd hf (by simp [hqueue]), ⟨fun _ => rfl, fun hw => ?_, rfl⟩, fun _ => rfl, fun hm => ?_⟩
  · rw [htx] at hw
    cases hw
  · cases hm

theorem reset_tablesSound : TablesSound State.reset := by
  have hentries : ∀ e ∈ State.reset.prs.entries, e = PresEntry.reset := fun e he => List.eq_of_mem_replicate he
  have hseated : seatedTeams State.reset.prs.entries = [] :=
    List.filter_eq_nil_iff.mpr fun t _ hany => by
      obtain ⟨e, he, hteam⟩ := List.any_eq_true.mp hany
      rw [hentries e he] at hteam
      cases hteam
  exact ⟨rfl, rfl, fun e he _ => hentries e he, hseated.symm, .nil, .nil, rfl⟩

/-- A power-on reset of the reset state is that state, so its outputs are a reset's. -/
theorem reset_outputsAgree : OutputsAgree State.reset := resetState_outputs .powerOn false false true State.reset

theorem reset_boundsSound : BoundsSound State.reset := by decide

/-- Settles O10, invariant by invariant; the claim list is empty. -/
theorem soundAtReset : Obligations.SoundAtReset :=
  ⟨claimsSound_empty rfl rfl, reset_scoresSound, reset_queueSound, reset_boundsSound, reset_outputsAgree, reset_tablesSound⟩

end Sys2Proof.Machine

namespace Sys2Proof.Machine

open Sys2Proof.Safety

/-! ### The place of an entry in the waiting part (R100, R103) -/

/-- Insertion puts an entry between those before it in key order and those after it (R100). -/
theorem insertKey_split (e : Entry) (es : List Entry) (h : es.Pairwise fun a b => keyBefore a b = true)
    (hn : ∀ x ∈ es, x.team ≠ e.team) :
    ∃ before after, es = before ++ after ∧ insertKey e es = before ++ e :: after ∧
      (∀ x ∈ before, keyBefore x e = true) ∧ ∀ x ∈ after, keyBefore e x = true := by
  induction es with
  | nil => exact ⟨[], [], rfl, rfl, by simp, by simp⟩
  | cons x xs ih =>
    obtain ⟨hx, hxs⟩ := List.pairwise_cons.mp h
    unfold insertKey
    split
    case isTrue hb =>
      refine ⟨[], x :: xs, rfl, rfl, by simp, fun y hy => ?_⟩
      rcases List.mem_cons.mp hy with rfl | hy
      · exact hb
      · exact keyBefore_trans hb (hx y hy)
    case isFalse hb =>
      obtain ⟨before, after, rfl, hins, hbefore, hafter⟩ := ih hxs fun y hy => hn y (.tail x hy)
      refine ⟨x :: before, after, rfl, by rw [hins]; rfl, fun y hy => ?_, hafter⟩
      rcases List.mem_cons.mp hy with rfl | hy
      · exact keyBefore_total (hn y (.head _)).symm hb
      · exact hbefore y hy

/-- The parts of a list in which an entry has been placed (R99, R103). -/
theorem parts_placeWaiting (e : Entry) (es : List Entry) :
    grantedPart (placeWaiting e es) = grantedPart es ∧
      waitingPart (placeWaiting e es) = insertKey (placedEntry e es) (waitingPart es) := by
  refine parts_append (fun x hx => (mem_grantedPart.mp hx).2) fun x hx => ?_
  rcases mem_insertKey.mp hx with rfl | hx
  · rfl
  · exact (mem_waitingPart.mp hx).2

/-- Two keys differ where the teams do, and one stands before the other (R100). -/
theorem keyBefore_iff_not_keyBefore {a b : Entry} (h : a.team ≠ b.team) : keyBefore a b = true ↔ keyBefore b a = false := by
  rw [← Bool.not_eq_true]
  refine ⟨fun hab hba => ?_, keyBefore_total h.symm⟩
  rw [keyBefore_iff] at hab hba
  omega

/-- Settles O13: the order read off `keyBefore_iff`, the place from `insertKey_split`. -/
theorem keyOrder : Obligations.KeyOrder := by
  refine ⟨fun a b => ?_, fun a b => keyBefore_iff_not_keyBefore, fun a b c => keyBefore_trans, fun _ _ _ _ _ _ _ => rfl,
    fun a b ht hl => ?_, fun e es hkey hn => ?_⟩
  · rw [keyBefore_iff]
    omega
  · rw [keyBefore_iff]
    omega
  · obtain ⟨hgranted, hwaiting⟩ := parts_placeWaiting e es
    obtain ⟨before, after, hsplit, hins, hbefore, hafter⟩ := insertKey_split (placedEntry e es) _ hkey hn
    exact ⟨before, after, placedEntry e es, hsplit, hwaiting.trans hins, hgranted, rfl, hbefore, hafter⟩

end Sys2Proof.Machine

namespace Sys2Proof.Machine

open Sys2Proof.Safety

/-! ### The ANSWERING entry of a list in order (R99) -/

section
variable {es : List Entry}

/-- An ANSWERING entry stands last of the granted part (R99). -/
theorem listOrdered_answering {e : Entry} (h : ListOrdered es) (he : e ∈ es) (ha : e.status = .answering) :
    grantedPart es = (grantedPart es).dropLast ++ [e] := by
  obtain ⟨-, -, -, -, hlast⟩ := h
  have heg : e ∈ grantedPart es := mem_grantedPart.mpr ⟨he, by simp [ha]⟩
  have hne := List.ne_nil_of_mem heg
  have hsplit := List.dropLast_append_getLast hne
  rw [← hsplit, List.mem_append, List.mem_singleton] at heg
  rcases heg with hd | rfl
  · exact absurd ha (hlast e hd)
  · exact hsplit.symm

/-- No two entries answer (R99). -/
theorem listOrdered_answering_unique {a b : Entry} (h : ListOrdered es) (ha : a ∈ es) (hb : b ∈ es)
    (haa : a.status = .answering) (hba : b.status = .answering) : a = b := by
  have hab := (listOrdered_answering h ha haa).symm.trans (listOrdered_answering h hb hba)
  simpa using hab

/-- A list in order has the turn of one team in progress, or of none. -/
theorem answersAs_of_listOrdered (h : ListOrdered es) : ∃ answering, AnswersAs answering es := by
  by_cases hany : ∃ e ∈ es, e.status = .answering
  · obtain ⟨e, he, hea⟩ := hany
    refine ⟨some e.team, h, fun x hx hxa => ?_, fun t ht => ⟨e, he, Option.some.inj ht, hea⟩⟩
    rw [listOrdered_answering_unique h hx he hxa hea]
  · exact ⟨none, h, fun x hx hxa => absurd ⟨x, hx, hxa⟩ hany, fun t ht => nomatch ht⟩

/-! ### Queue positions (R117) -/

/-- An entry that a position counts (R117). -/
def Entry.isOpen (e : Entry) : Bool := e.status == .waiting || e.status == .answering

/-- A position counts on past the first entry, or ends at it. -/
theorem positionFrom_cons (t n : Nat) (e : Entry) (es : List Entry) :
    positionFrom t n (e :: es) =
      if e.team = t then if e.isOpen then some n else none else positionFrom t (n + e.isOpen.toNat) es := by
  rw [positionFrom]
  by_cases ho : e.status = .waiting ∨ e.status = .answering
  · have hopen : e.isOpen = true := by simpa [Entry.isOpen] using ho
    simp [ho, hopen]
  · have hopen : e.isOpen = false := by simpa [Entry.isOpen] using ho
    simp [ho, hopen]

theorem positionFrom_absent (t n : Nat) (es : List Entry) (h : ∀ e ∈ es, e.team ≠ t) : positionFrom t n es = none := by
  induction es generalizing n with
  | nil => rfl
  | cons e es ih => rw [positionFrom_cons, if_neg (h e (.head es)), ih _ fun x hx => h x (.tail e hx)]

/-- The position of an entry whose team no entry before it has (R117). -/
theorem positionFrom_append (n : Nat) (before after : List Entry) (e : Entry) (h : ∀ x ∈ before, x.team ≠ e.team) :
    positionFrom e.team n (before ++ e :: after) =
      if e.isOpen then some (n + before.countP Entry.isOpen) else none := by
  induction before generalizing n with
  | nil => simp [positionFrom_cons]
  | cons x xs ih =>
    rw [List.cons_append, positionFrom_cons, if_neg (h x (.head xs)), ih _ fun y hy => h y (.tail x hy), List.countP_cons]
    cases x.isOpen <;> simp [Nat.add_assoc, Nat.add_comm 1]

/-- Positions lie within the list's length. -/
theorem positionFrom_lt {t n p : Nat} (h : positionFrom t n es = some p) : p < n + es.length := by
  induction es generalizing n with
  | nil => cases h
  | cons e es ih =>
    rw [positionFrom_cons] at h
    rw [List.length_cons]
    split at h
    · split at h
      · cases h
        omega
      · cases h
    · have hp := ih h
      have hle := Bool.toNat_le e.isOpen
      omega

/-- Where teams stand once the positions run without gaps (R117). -/
theorem positionFrom_range (n : Nat) (h : (es.map Entry.team).Nodup) :
    (es.filter Entry.isOpen).map (fun e => positionFrom e.team n es) =
      (List.range (es.countP Entry.isOpen)).map fun i => some (i + n) := by
  induction es generalizing n with
  | nil => rfl
  | cons e es ih =>
    obtain ⟨hn, hone⟩ := List.nodup_cons.mp h
    have hrest : (es.filter Entry.isOpen).map (fun x => positionFrom x.team n (e :: es)) =
        (List.range (es.countP Entry.isOpen)).map fun i => some (i + (n + e.isOpen.toNat)) := by
      rw [← ih _ hone]
      refine List.map_congr_left fun x hx => ?_
      have hxe : e.team ≠ x.team := fun hex => hn (hex ▸ List.mem_map_of_mem (List.mem_filter.mp hx).1)
      rw [positionFrom_cons, if_neg hxe]
    cases ho : e.isOpen with
    | false =>
      rw [List.filter_cons_of_neg (by simp [ho]), List.countP_cons_of_neg (by simp [ho]), hrest, ho]
      rfl
    | true =>
      have hself : positionFrom e.team n (e :: es) = some n := by rw [positionFrom_cons, if_pos rfl, if_pos ho]
      rw [List.filter_cons_of_pos ho, List.countP_cons_of_pos ho, List.map_cons, hrest, hself, ho, List.range_succ_eq_map,
        List.map_cons, List.map_map, Nat.zero_add]
      refine congrArg _ (List.map_congr_left fun i _ => ?_)
      simp only [Function.comp_apply, Bool.toNat_true]
      congr 1
      omega

/-- Before the last of the granted part nothing waits or answers (R99). -/
theorem countP_isOpen_dropLast (h : ListOrdered es) : (grantedPart es).dropLast.countP Entry.isOpen = 0 := by
  obtain ⟨-, -, -, -, hlast⟩ := h
  refine List.countP_eq_zero.mpr fun e he => ?_
  simpa [Entry.isOpen] using ⟨(mem_grantedPart.mp (List.mem_of_mem_dropLast he)).2, hlast e he⟩

/-- Of the granted part only an ANSWERING entry is counted (R99). -/
theorem countP_isOpen_grantedPart (h : ListOrdered es) :
    (grantedPart es).countP Entry.isOpen = if anyAnswering es then 1 else 0 := by
  split
  case isTrue hany =>
    obtain ⟨e, he, hea⟩ := List.any_eq_true.mp hany
    have ha : e.status = .answering := by simpa using hea
    have hopen : e.isOpen = true := by simp [Entry.isOpen, ha]
    rw [listOrdered_answering h he ha, List.countP_append, countP_isOpen_dropLast h]
    simp [hopen]
  case isFalse hany =>
    refine List.countP_eq_zero.mpr fun e he => ?_
    obtain ⟨he, hw⟩ := mem_grantedPart.mp he
    have ha : e.status ≠ .answering := fun ha => hany (List.any_eq_true.mpr ⟨e, he, by simp [ha]⟩)
    simpa [Entry.isOpen] using ⟨hw, ha⟩

/-- The position of an entry counts those before it (R117). -/
theorem queuePosition_eq (h : ListOrdered es) {before after : List Entry} {e : Entry} (hsplit : es = before ++ e :: after) :
    queuePosition e.team es = if e.isOpen then some (1 + before.countP Entry.isOpen) else none := by
  obtain ⟨-, -, hone, -, -⟩ := h
  subst hsplit
  rw [List.map_append, List.map_cons, List.nodup_middle, List.nodup_cons] at hone
  exact positionFrom_append 1 before after e fun x hx hxe =>
    hone.1 (hxe ▸ List.mem_append_left _ (List.mem_map_of_mem hx))

/-- The ANSWERING entry is the first counted. -/
theorem queuePosition_answering (h : ListOrdered es) {e : Entry} (he : e ∈ es) (ha : e.status = .answering) :
    queuePosition e.team es = some 1 := by
  have hsplit : es = (grantedPart es).dropLast ++ e :: waitingPart es := by
    rw [List.append_cons, ← listOrdered_answering h he ha, h.1]
  rw [queuePosition_eq h hsplit, countP_isOpen_dropLast h]
  simp [Entry.isOpen, ha]

/-- The head of the waiting part is the first counted, or the second behind an ANSWERING entry. -/
theorem queuePosition_waitingHead (h : ListOrdered es) {e : Entry} {rest : List Entry} (hw : waitingPart es = e :: rest) :
    queuePosition e.team es = some (if anyAnswering es then 2 else 1) := by
  have hopen : e.isOpen = true := by
    have he := (mem_waitingPart.mp (hw ▸ List.mem_cons_self : e ∈ waitingPart es)).2
    simp [Entry.isOpen, he]
  rw [queuePosition_eq h (by rw [← hw, h.1]), countP_isOpen_grantedPart h, if_pos hopen]
  split <;> rfl

end

/-- Settles O17: positions count from 1 (`queuePosition_eq`, `positionFrom_range`). -/
theorem queuePositions : Obligations.QueuePositions := by
  intro es h
  refine ⟨fun before e after hsplit => queuePosition_eq h hsplit, fun t ht => positionFrom_absent t 1 es ht,
    fun e he ha => queuePosition_answering h he ha, fun e rest hw => queuePosition_waitingHead h hw, ?_⟩
  obtain ⟨-, -, hone, -, -⟩ := h
  exact positionFrom_range 1 hone

end Sys2Proof.Machine

namespace Sys2Proof.Machine

open Sys2Proof.Safety

/-! ### The list aligned with a verdict out of step (R111 to R113) -/

section
variable {es : List Entry} {r : Rng} {count team : Nat}

/-- The list with the verdict's turn placed and the rival's entry taken out (R111). -/
def alignedBase (r : Rng) (count team : Nat) (es : List Entry) : List Entry :=
  grantedPart (keptEntries team es) ++ turnEntry r count team es :: waitingPart (keptEntries team es)

/-- The entry that holds another team's turn (R112). -/
def rivalOf (team : Nat) (es : List Entry) : Option Entry := (withoutTeam team es).find? (isRival team)

/-- An alignment places the rival's entry, if there is one, among the WAITING ones (R111, R112). -/
theorem alignEntries_eq (r : Rng) (count team : Nat) (es : List Entry) :
    alignEntries r count team es =
      match rivalOf team es with
      | none => alignedBase r count team es
      | some e => placeWaiting { e with outcome := none } (alignedBase r count team es) := rfl

/-- The rival is another team's ANSWERING entry, in a list in order the only one. -/
theorem rivalOf_eq_some (h : ListOrdered es) {old : Entry} :
    rivalOf team es = some old ↔ old ∈ es ∧ old.team ≠ team ∧ old.status = .answering := by
  have hrival : ∀ e, isRival team e = true ↔ e.status = .answering ∧ e.team ≠ team := by simp [isRival]
  have hfound : ∀ e, rivalOf team es = some e → e ∈ es ∧ e.team ≠ team ∧ e.status = .answering := fun e he => by
    obtain ⟨hmem, hteam⟩ := mem_withoutTeam.mp (List.mem_of_find?_eq_some he)
    exact ⟨hmem, hteam, ((hrival e).mp (List.find?_some he)).1⟩
  refine ⟨hfound old, fun ⟨hmem, hteam, ha⟩ => ?_⟩
  cases hr : rivalOf team es with
  | none =>
    exact absurd ((hrival old).mpr ⟨ha, hteam⟩) (List.find?_eq_none.mp hr old (mem_withoutTeam.mpr ⟨hmem, hteam⟩))
  | some e =>
    obtain ⟨he, -, hea⟩ := hfound e hr
    rw [listOrdered_answering_unique h he hmem hea ha]

theorem mem_keptEntries_iff {x : Entry} : x ∈ keptEntries team es ↔ x ∈ es ∧ x.team ≠ team ∧ x.status ≠ .answering := by
  refine ⟨mem_keptEntries, fun ⟨hx, hteam, ha⟩ => List.mem_filter.mpr ⟨mem_withoutTeam.mpr ⟨hx, hteam⟩, ?_⟩⟩
  simp [isRival, ha]

theorem mem_alignedBase {x : Entry} :
    x ∈ alignedBase r count team es ↔ x = turnEntry r count team es ∨ x ∈ keptEntries team es := by
  refine ⟨mem_turn, fun hx => ?_⟩
  rw [alignedBase, List.mem_append, List.mem_cons, mem_grantedPart, mem_waitingPart]
  tauto

/-- The verdict's turn is the last of the granted part (R111). -/
theorem grantedPart_alignedBase :
    grantedPart (alignedBase r count team es) = grantedPart (keptEntries team es) ++ [turnEntry r count team es] := by
  rw [alignedBase, List.append_cons]
  refine (parts_append (fun x hx => ?_) fun x hx => (mem_waitingPart.mp hx).2).1
  rcases List.mem_append.mp hx with hx | hx
  · exact (mem_grantedPart.mp hx).2
  · rw [List.mem_singleton.mp hx, (turnEntry_holds r count team es).2]
    decide

/-- The rival's entry waits, so the granted part ends with the verdict's turn (R111). -/
theorem grantedPart_alignEntries :
    grantedPart (alignEntries r count team es) = grantedPart (keptEntries team es) ++ [turnEntry r count team es] := by
  rw [alignEntries_eq]
  split
  · exact grantedPart_alignedBase
  · exact (parts_placeWaiting _ _).1.trans grantedPart_alignedBase

/-- Of the granted part an alignment keeps, in its order, what neither answers nor is the verdict's team's (R112, R113). -/
theorem grantedPart_keptEntries :
    grantedPart (keptEntries team es) = (grantedPart es).filter fun e => e.status != .answering && e.team != team := by
  simp only [grantedPart, keptEntries, withoutTeam, List.filter_filter]
  refine List.filter_congr fun e _ => ?_
  rw [Bool.eq_iff_iff]
  simp only [isRival, Bool.and_eq_true, bne_iff_ne, Bool.not_eq_true', Bool.and_eq_false_iff, beq_eq_false_iff_ne,
    bne_eq_false_iff_eq]
  tauto

/-- An entry as it is displaced by another team's turn: WAITING again, its late flag set afresh (R112). -/
def displaced (after : List Entry) (old : Entry) : Entry :=
  { old with status := .waiting, outcome := none, late := (grantedPart after).any (keyBefore old) }

/-- What an aligned list holds: the verdict's turn, the entries kept, the rival's entry displaced (R111 to R113). -/
theorem mem_alignEntries (h : ListOrdered es) {x : Entry} :
    x ∈ alignEntries r count team es ↔
      x = turnEntry r count team es ∨ x ∈ keptEntries team es ∨
        ∃ old ∈ es, old.team ≠ team ∧ old.status = .answering ∧ x = displaced (alignEntries r count team es) old := by
  have hlate : ∀ old, displaced (alignEntries r count team es) old =
      placedEntry { old with outcome := none } (alignedBase r count team es) := fun old => by
    rw [displaced, grantedPart_alignEntries, ← grantedPart_alignedBase]
    rfl
  simp only [hlate]
  rw [alignEntries_eq]
  cases hr : rivalOf team es with
  | none =>
    have hno : ∀ old ∈ es, old.team ≠ team → old.status ≠ .answering := fun old hm ht ha => by
      rw [(rivalOf_eq_some h).mpr ⟨hm, ht, ha⟩] at hr
      cases hr
    refine mem_alignedBase.trans (or_congr_right (or_iff_left ?_).symm)
    rintro ⟨old, hm, ht, ha, -⟩
    exact hno old hm ht ha
  | some e =>
    obtain ⟨hm, ht, ha⟩ := (rivalOf_eq_some h).mp hr
    refine mem_placeWaiting.trans ⟨fun hx => ?_, ?_⟩
    · rcases hx with rfl | hx
      · exact .inr (.inr ⟨e, hm, ht, ha, rfl⟩)
      · exact (mem_alignedBase.mp hx).imp_right .inl
    · rintro (hx | hx | ⟨old, hom, -, hoa, rfl⟩)
      · exact .inr (mem_alignedBase.mpr (.inl hx))
      · exact .inr (mem_alignedBase.mpr (.inr hx))
      · rw [listOrdered_answering_unique h hom hm hoa ha]
        exact .inl rfl

/-- The turn of a team with an entry is that entry, ANSWERING (R111). -/
theorem turnEntry_of_mem (h : ListOrdered es) {old : Entry} (hm : old ∈ es) (ht : old.team = team) :
    turnEntry r count team es = { old with status := .answering, outcome := none } := by
  unfold turnEntry
  split
  case h_1 e he =>
    obtain ⟨hem, het⟩ := entryOf_some he
    rw [listOrdered_unique h hem hm (het.trans ht.symm)]
  case h_2 hnone => exact absurd ht (entryOf_none hnone old hm)

/-- The turn of a team without an entry is an adopted one (R113). -/
theorem turnEntry_adopted (hn : ∀ old ∈ es, old.team ≠ team) :
    turnEntry r count team es =
      { team := team, desk := 0, stamp := count / r.grain, level := r.level team, status := .answering, outcome := none,
        late := false, adopted := true } := by
  unfold turnEntry
  split
  case h_1 e he =>
    obtain ⟨hem, het⟩ := entryOf_some he
    exact absurd het (hn e hem)
  case h_2 => rfl

theorem turnEntry_outcome : (turnEntry r count team es).outcome = none := by
  unfold turnEntry
  split <;> rfl

end

/-- Settles O37: what the aligned list holds is `mem_alignEntries`, its granted part `grantedPart_alignEntries`. -/
theorem alignmentPlacesTurn : Obligations.AlignmentPlacesTurn := by
  intro r count team es h h1 h16 after
  obtain ⟨answering, hanswers⟩ := answersAs_of_listOrdered h
  obtain ⟨hteam, hstatus⟩ := turnEntry_holds r count team es
  have hgranted : grantedPart after = grantedPart (keptEntries team es) ++ [turnEntry r count team es] :=
    grantedPart_alignEntries
  have hmem : ∀ x, x ∈ after ↔ _ := fun x => mem_alignEntries (r := r) (count := count) (team := team) h
  refine ⟨(answersAs_alignEntries count team hanswers (by simp [isTeam, h1, h16])).1,
    ⟨turnEntry r count team es, by simp [hgranted], hteam, hstatus, turnEntry_outcome,
      fun old hm ht => turnEntry_of_mem h hm ht, turnEntry_adopted⟩,
    fun old hm ht ha => (hmem old).mpr (.inr (.inl (mem_keptEntries_iff.mpr ⟨hm, ht, ha⟩))),
    fun old hm ht ha => (hmem _).mpr (.inr (.inr ⟨old, hm, ht, ha, rfl⟩)), fun e he => ?_, ?_⟩
  · rcases (hmem e).mp he with rfl | hkept | ⟨old, hm, -, -, rfl⟩
    · exact .inl hteam
    · exact .inr ⟨e, (mem_keptEntries hkept).1, rfl⟩
    · exact .inr ⟨old, hm, rfl⟩
  · rw [hgranted, List.dropLast_concat, grantedPart_keptEntries]

end Sys2Proof.Machine

namespace Sys2Proof.Machine

open Sys2Proof.Safety

/-! ### Records in the body of a reply (R204) -/

section
variable {α : Type} {record body : List α} {n : Nat}

/-- An item of a record that stands at a place of a body. -/
theorem getElem?_of_record (h : record <+: body.drop n) {j : Nat} (hj : j < record.length) :
    body[n + j]? = record[j]? := by
  obtain ⟨rest, hrest⟩ := h
  rw [← List.getElem?_drop, ← hrest, List.getElem?_append_left hj]

/-- Several items in a row of such a record. -/
theorem take_drop_of_record (h : record <+: body.drop n) {j k : Nat} (hk : j + k ≤ record.length) :
    (body.drop (n + j)).take k = (record.drop j).take k := by
  obtain ⟨rest, hrest⟩ := h
  rw [← List.drop_drop, ← hrest, List.drop_append_of_le_length (by omega),
    List.take_append_of_le_length (by rw [List.length_drop]; omega)]

/-- A record of a table whose records are of one width stands at its place after the header. -/
theorem record_of_table {w i : Nat} (header : List α) (records : List (List α)) (hw : ∀ x ∈ records, x.length = w)
    (h : records[i]? = some record) : record <+: (header ++ records.flatten).drop (header.length + w * i) := by
  rw [← List.drop_drop, List.drop_left]
  induction records generalizing i with
  | nil => cases h
  | cons x xs ih =>
    cases i with
    | zero =>
      obtain rfl : x = record := by simpa using h
      exact ⟨xs.flatten, rfl⟩
    | succ i =>
      have hx : w * (i + 1) = x.length + w * i := by rw [hw x (.head xs)]; ring
      rw [List.flatten_cons, hx, ← List.drop_drop, List.drop_left]
      exact ih (fun y hy => hw y (.tail x hy)) (by simpa using h)

theorem length_table {w : Nat} (records : List (List α)) (hw : ∀ x ∈ records, x.length = w) :
    records.flatten.length = w * records.length := by
  induction records with
  | nil => rfl
  | cons x xs ih =>
    rw [List.flatten_cons, List.length_append, ih fun y hy => hw y (.tail x hy), hw x (.head xs), List.length_cons]
    ring

end

/-! ### The bits of a byte (R204) -/

/-- The free bits of a byte leave its named ones (log 11). -/
theorem getLsbD_withSpare (named spare : Byte) (place n k : Nat) (h : spare.getLsbD k = false) :
    (withSpare named spare place n).getLsbD k = named.getLsbD k := by
  by_cases hk : k < 8
  · simp only [withSpare, BitVec.getLsbD_or, BitVec.getLsbD_and, BitVec.getLsbD_not, h]
    simp [hk]
  · rw [BitVec.getLsbD_of_ge _ _ (by omega), BitVec.getLsbD_of_ge _ _ (by omega)]

/-- So they leave a field of named bits. -/
theorem field_withSpare (named spare : Byte) (place n start len : Nat) (h : spare.toNat / 2 ^ start % 2 ^ len = 0) :
    (withSpare named spare place n).toNat / 2 ^ start % 2 ^ len = named.toNat / 2 ^ start % 2 ^ len := by
  refine Nat.eq_of_testBit_eq fun k => ?_
  have hk := congrArg (·.testBit k) h
  simp only [Nat.testBit_mod_two_pow, Nat.testBit_div_two_pow, Nat.zero_testBit, Bool.and_eq_false_iff,
    decide_eq_false_iff_not] at hk ⊢
  rcases hk with hk | hk
  · simp [hk]
  · exact congrArg _ (getLsbD_withSpare named spare place n _ hk)

theorem getLsbD_foldl_or {w : Nat} {ι : Type} (items : List ι) (f : ι → BitVec w) (x : BitVec w) (k : Nat) :
    (items.foldl (fun acc i => acc ||| f i) x).getLsbD k = (x.getLsbD k || items.any fun i => (f i).getLsbD k) := by
  induction items generalizing x with
  | nil => simp
  | cons i is ih => rw [List.foldl_cons, ih, BitVec.getLsbD_or, List.any_cons, Bool.or_assoc]

/-- A bit of a set built up item by item is set by one of the items. -/
theorem getLsbD_union_iff {w : Nat} {ι : Type} (items : List ι) (f : ι → BitVec w) (k : Nat) :
    (items.foldl (fun acc i => acc ||| f i) 0).getLsbD k = true ↔ ∃ i ∈ items, (f i).getLsbD k = true := by
  have hzero : (0 : BitVec w).getLsbD k = false := BitVec.getLsbD_zero
  rw [getLsbD_foldl_or, hzero, Bool.false_or, List.any_eq_true]

/-- One bit of a word, set or clear. -/
theorem getLsbD_bit_iff {w : Nat} (m k : Nat) (p : Prop) [Decidable p] :
    (if p then BitVec.ofNat w (2 ^ m) else 0).getLsbD k = true ↔ p ∧ m = k ∧ k < w := by
  by_cases hp : p
  · rw [if_pos hp, BitVec.getLsbD_ofNat, Nat.testBit_two_pow]
    simp [hp, and_comm]
  · simp [hp]

/-- Desk d stands in byte d / 8 of a desk set, at bit 7 − (d mod 8) (R204). -/
theorem deskSetBytes_spell (desks : List Nat) (d : Nat) (h : d < 64) :
    ∃ b : Byte, (deskSetBytes desks)[d / 8]? = some b ∧ (b.getLsbD (7 - d % 8) = true ↔ d ∈ desks) := by
  have hbyte : d / 8 < 8 := by omega
  refine ⟨_, by rw [deskSetBytes, List.getElem?_map, List.getElem?_range hbyte]; rfl, ?_⟩
  simp only [getLsbD_union_iff, bitAt, getLsbD_bit_iff, List.mem_range, List.contains_iff_mem]
  constructor
  · rintro ⟨k, hk, hmem, hbit, -⟩
    rwa [show d = 8 * (d / 8) + k by omega]
  · intro hmem
    exact ⟨d % 8, by omega, by rwa [Nat.div_add_mod], rfl, by omega⟩

/-- Team t stands at bit t − 1 of the seated set (R204). -/
theorem seatedBytes_spell (teams : List Nat) :
    ∃ a b : Byte, seatedBytes teams = [a, b] ∧
      ∀ team, 1 ≤ team → team ≤ 16 → ((half a b).getLsbD (team - 1) = true ↔ team ∈ teams) := by
  refine ⟨_, _, rfl, fun team h1 h16 => ?_⟩
  simp only [half_bytes, getLsbD_union_iff, getLsbD_bit_iff, List.mem_range, List.contains_iff_mem]
  constructor
  · rintro ⟨i, -, hmem, rfl, -⟩
    rwa [Nat.sub_add_cancel h1] at hmem
  · intro hmem
    exact ⟨team - 1, by omega, by rwa [Nat.sub_add_cancel h1], rfl, by omega⟩

/-! ### The packed bytes of the records (R204) -/

/-- The last byte of a team record, a rank of 31 at most (R158). -/
theorem teamByte_spell (place n rank : Nat) (unconfirmed seated : Bool) (h : rank < 32) :
    let b := withSpare (bitAt 7 unconfirmed ||| bitAt 6 seated ||| byteOf rank) 0x20 place n
    b.getLsbD 7 = unconfirmed ∧ b.getLsbD 6 = seated ∧ b.toNat % 32 = rank := by
  intro b
  have hnamed : ∀ (u v : Bool) (r : Fin 32), let x := bitAt 7 u ||| bitAt 6 v ||| byteOf r
      x.getLsbD 7 = u ∧ x.getLsbD 6 = v ∧ x.toNat / 2 ^ 0 % 2 ^ 5 = r := by decide
  obtain ⟨h7, h6, hrank⟩ := hnamed unconfirmed seated ⟨rank, h⟩
  have hfield := field_withSpare (bitAt 7 unconfirmed ||| bitAt 6 seated ||| byteOf rank) 0x20 place n 0 5 (by decide)
  refine ⟨(getLsbD_withSpare _ _ _ _ 7 (by decide)).trans h7, (getLsbD_withSpare _ _ _ _ 6 (by decide)).trans h6, ?_⟩
  simp only [pow_zero, Nat.div_one] at hfield hrank
  exact hfield.trans hrank

/-- The sixth byte of a claim entry, a level of 3 at most (R118). -/
theorem statusByte_spell (status : ClaimStatus) (level : Nat) (late adopted : Bool) (h : level ≤ 3) :
    let b := (byteOf (statusCode status) <<< 5) ||| (byteOf level <<< 3) ||| bitAt 1 late ||| bitAt 0 adopted
    b.toNat / 32 = statusCode status ∧ b.toNat / 8 % 4 = level ∧ b.getLsbD 1 = late ∧ b.getLsbD 0 = adopted := by
  have hall : ∀ (l : Fin 4) (u v : Bool),
      let b := (byteOf (statusCode status) <<< 5) ||| (byteOf l <<< 3) ||| bitAt 1 u ||| bitAt 0 v
      b.toNat / 32 = statusCode status ∧ b.toNat / 8 % 4 = l ∧ b.getLsbD 1 = u ∧ b.getLsbD 0 = v := by
    cases status <;> decide
  exact hall ⟨level, by omega⟩ late adopted

/-- The seventh byte of a claim entry, a position of 31 at most (R118). -/
theorem outcomeByte_spell (outcome : Option TurnOutcome) (position : Nat) (h : position < 32) :
    let b := (entryOutcomeCode outcome <<< 5) ||| byteOf position
    b.toNat / 32 = (entryOutcomeCode outcome).toNat ∧ b.toNat % 32 = position := by
  have hall : ∀ p : Fin 32, let b := (entryOutcomeCode outcome <<< 5) ||| byteOf p
      b.toNat / 32 = (entryOutcomeCode outcome).toNat ∧ b.toNat % 32 = p := by
    rcases outcome with _ | o
    · decide
    · cases o <;> decide
  exact hall ⟨position, h⟩

/-- The first byte of a presence entry (R194). -/
theorem presenceByte_spell (place n : Nat) (e : PresEntry) :
    ∃ b : Byte, (presenceBytes place n e)[0]? = some b ∧ b.getLsbD 7 = e.heard ∧
      b.toNat / 32 % 4 = (roleCode e.role).toNat ∧ b.getLsbD 0 = e.unsynced ∧ b.getLsbD 1 = e.recovered ∧
      b.getLsbD 2 = e.unconfirmed := by
  have hnamed : ∀ (r : Role) (u v w x : Bool),
      let b := bitAt 7 u ||| (roleCode r <<< 5) ||| bitAt 0 v ||| bitAt 1 w ||| bitAt 2 x
      b.getLsbD 7 = u ∧ b.toNat / 2 ^ 5 % 2 ^ 2 = (roleCode r).toNat ∧ b.getLsbD 0 = v ∧ b.getLsbD 1 = w ∧
        b.getLsbD 2 = x := by
    intro r
    cases r <;> decide
  obtain ⟨h7, hrole, h0, h1, h2⟩ := hnamed e.role e.heard e.unsynced e.recovered e.unconfirmed
  exact ⟨_, rfl, (getLsbD_withSpare _ _ _ _ 7 (by decide)).trans h7,
    (field_withSpare _ 0x18 place n 5 2 (by decide)).trans hrole, (getLsbD_withSpare _ _ _ _ 0 (by decide)).trans h0,
    (getLsbD_withSpare _ _ _ _ 1 (by decide)).trans h1, (getLsbD_withSpare _ _ _ _ 2 (by decide)).trans h2⟩

end Sys2Proof.Machine

namespace Sys2Proof.Machine

open Sys2Proof.Safety

/-! ### Snapshot reads (R118, R136, R158, R194, R199) -/

/-- A command that only reads answers with its body (R195). -/
theorem command_answer (code : Byte) (body : State → List Byte) (s : State) (h : s.cmp.transfer = .shifting) :
    ∃ t, command (fun s => answer code .ok (body s) s) s = .next t ∧ OnlyReplied code .ok (body s) s t :=
  ⟨_, command_shifting _ s h, answer_onlyReplied _ _ _ s⟩

/-- Teams 1 to 16 stand once each: the list is no longer than sixteen (R97). -/
theorem listOrdered_length {es : List Entry} (h : ListOrdered es) : es.length ≤ 16 := by
  obtain ⟨-, -, hone, hteam, -⟩ := h
  have hsub : es.map Entry.team ⊆ List.range' 1 16 := fun t ht => by
    obtain ⟨e, he, rfl⟩ := List.mem_map.mp ht
    have hrange := hteam e he
    simp only [isTeam, Bool.and_eq_true, decide_eq_true_eq] at hrange
    exact List.mem_range'_1.mpr (by omega)
  simpa using (List.subperm_of_subset hone hsub).length_le

/-- A queue position fits its five bits (R117, R204). -/
theorem queuePosition_lt {es : List Entry} (h : ListOrdered es) (t : Nat) : (queuePosition t es).getD 0 < 32 := by
  have hlength := listOrdered_length h
  cases hp : queuePosition t es with
  | none => simp
  | some p =>
    have hlt := positionFrom_lt hp
    rw [Option.getD_some]
    omega

/-- A rank among sixteen fits its five bits (R156, R204). -/
theorem rank_lt {s : State} (h : ScoresSound s) {x : TeamRec} (hx : x ∈ s.scu.records) : x.rank < 32 := by
  obtain ⟨hlength, -, -, hrank⟩ := h
  have hcount := List.countP_le_length (l := s.scu.records) (p := fun y => y.seated && decide (x.total < y.total))
  rw [hrank x hx, rankOf]
  split <;> omega

@[simp] theorem length_teamBytes (place n : Nat) (x : TeamRec) : (teamBytes place n x).length = 5 := rfl

@[simp] theorem length_entryBytes (es : List Entry) (e : Entry) : (entryBytes es e).length = 7 := rfl

@[simp] theorem length_presenceBytes (place n : Nat) (e : PresEntry) : (presenceBytes place n e).length = 6 := rfl

/-- The body of READ_SCORES: the seated teams counted, then five bytes for each team (R158). -/
theorem scoresBody_spell (s : State) (h : ScoresSound s) :
    (scoresBody s).length = 81 ∧ (scoresBody s)[0]? = some (byteOf (s.scu.records.countP TeamRec.seated)) ∧
      ∀ (i : Nat) (x : TeamRec), s.scu.records[i]? = some x →
        ((scoresBody s).drop (1 + 5 * i)).take 4 =
          bytes2 (BitVec.ofInt 16 x.total) ++ [byteOf x.rights, byteOf x.wrongs] ∧
        ∃ b : Byte, (scoresBody s)[5 + 5 * i]? = some b ∧ b.getLsbD 7 = x.unconfirmed ∧ b.getLsbD 6 = x.seated ∧
          b.toNat % 32 = x.rank := by
  have hwidth : ∀ x ∈ s.scu.records.mapIdx (fun i x => teamBytes (10 + 5 * i) s.free x), x.length = 5 := fun x hx => by
    obtain ⟨i, hi, rfl⟩ := List.mem_mapIdx.mp hx
    simp
  have hlength := h.1
  refine ⟨?_, rfl, fun i x hx => ?_⟩
  · rw [scoresBody, List.length_cons, length_table _ hwidth, List.length_mapIdx, hlength]
  · have hrecord : teamBytes (10 + 5 * i) s.free x <+: (scoresBody s).drop (1 + 5 * i) :=
      record_of_table [_] _ hwidth (by rw [List.getElem?_mapIdx, hx]; rfl)
    have hlast := getElem?_of_record hrecord (j := 4) (by simp)
    rw [show 1 + 5 * i + 4 = 5 + 5 * i by omega] at hlast
    exact ⟨take_drop_of_record hrecord (j := 0) (k := 4) (by simp), _, hlast,
      teamByte_spell _ _ _ _ _ (rank_lt h (List.mem_of_getElem? hx))⟩

/-- The body of READ_CLAIMS: round number and length, then seven bytes for each entry (R118). -/
theorem claimsBody_spell (s : State) (h : ListOrdered s.clt.entries) (hlevel : ∀ e ∈ s.clt.entries, e.level ≤ 3) :
    (claimsBody s).length = 2 + 7 * s.clt.entries.length ∧
      ∀ (i : Nat) (e : Entry), s.clt.entries[i]? = some e →
        ((claimsBody s).drop (2 + 7 * i)).take 5 = [byteOf e.team, byteOf e.desk] ++ bytes3 (BitVec.ofNat 24 e.stamp) ∧
        (∃ b : Byte, (claimsBody s)[7 + 7 * i]? = some b ∧ b.toNat / 32 = statusCode e.status ∧
          b.toNat / 8 % 4 = e.level ∧ b.getLsbD 1 = e.late ∧ b.getLsbD 0 = e.adopted) ∧
        ∃ b : Byte, (claimsBody s)[8 + 7 * i]? = some b ∧ b.toNat / 32 = (entryOutcomeCode e.outcome).toNat ∧
          b.toNat % 32 = (queuePosition e.team s.clt.entries).getD 0 := by
  have hwidth : ∀ x ∈ s.clt.entries.map (entryBytes s.clt.entries), x.length = 7 := fun x hx => by
    obtain ⟨e, he, rfl⟩ := List.mem_map.mp hx
    simp
  refine ⟨?_, fun i e he => ?_⟩
  · rw [claimsBody, List.length_append, List.flatMap_def, length_table _ hwidth, List.length_map]
    rfl
  · have hrecord : entryBytes s.clt.entries e <+: (claimsBody s).drop (2 + 7 * i) :=
      record_of_table [_, _] _ hwidth (by rw [List.getElem?_map, he]; rfl)
    have hstatus := getElem?_of_record hrecord (j := 5) (by simp)
    have houtcome := getElem?_of_record hrecord (j := 6) (by simp)
    rw [show 2 + 7 * i + 5 = 7 + 7 * i by omega] at hstatus
    rw [show 2 + 7 * i + 6 = 8 + 7 * i by omega] at houtcome
    exact ⟨take_drop_of_record hrecord (j := 0) (k := 5) (by simp),
      ⟨_, hstatus, statusByte_spell _ _ _ _ (hlevel e (List.mem_of_getElem? he))⟩,
      _, houtcome, outcomeByte_spell _ _ (queuePosition_lt h e.team)⟩

/-- The body of READ_PRESENCE: the seated set, then six bytes for each desk (R194). -/
theorem presenceBody_spell (s : State) (h : s.prs.entries.length = 64) :
    (presenceBody s).length = 386 ∧
      (∀ team, 1 ≤ team → team ≤ 16 → ∃ a b : Byte, (presenceBody s)[0]? = some a ∧ (presenceBody s)[1]? = some b ∧
        ((half a b).getLsbD (team - 1) = true ↔ team ∈ s.prs.seated)) ∧
      ∀ (d : Nat) (e : PresEntry), s.prs.entries[d]? = some e →
        (∃ b : Byte, (presenceBody s)[2 + 6 * d]? = some b ∧ b.getLsbD 7 = e.heard ∧
          b.toNat / 32 % 4 = (roleCode e.role).toNat ∧ b.getLsbD 0 = e.unsynced ∧ b.getLsbD 1 = e.recovered ∧
          b.getLsbD 2 = e.unconfirmed) ∧
        ((presenceBody s).drop (3 + 6 * d)).take 5 =
          byteOf e.team :: (bytes2 e.tag ++ [byteOf e.lastRound, byteOf e.lastRoll]) := by
  have hwidth : ∀ x ∈ s.prs.entries.mapIdx (fun i e => presenceBytes (7 + 6 * i) s.free e), x.length = 6 := fun x hx => by
    obtain ⟨i, hi, rfl⟩ := List.mem_mapIdx.mp hx
    simp
  refine ⟨?_, fun team h1 h16 => ?_, fun d e he => ?_⟩
  · rw [presenceBody, List.length_append, length_table _ hwidth, List.length_mapIdx, h]
    rfl
  · obtain ⟨a, b, hseated, hspell⟩ := seatedBytes_spell s.prs.seated
    rw [presenceBody, hseated]
    exact ⟨a, b, rfl, rfl, hspell team h1 h16⟩
  · have hrecord : presenceBytes (7 + 6 * d) s.free e <+: (presenceBody s).drop (2 + 6 * d) :=
      record_of_table (seatedBytes s.prs.seated) _ hwidth (by rw [List.getElem?_mapIdx, he]; rfl)
    obtain ⟨b, hb, hspell⟩ := presenceByte_spell (7 + 6 * d) s.free e
    have htail := take_drop_of_record hrecord (j := 1) (k := 5) (by simp)
    rw [show 2 + 6 * d + 1 = 3 + 6 * d by omega] at htail
    exact ⟨⟨b, (getElem?_of_record hrecord (j := 0) (by simp)).trans hb, hspell⟩, htail⟩

/-- The body of READ_ROLL_REPORT: the report's figures and its desks, the roll in progress and its reply set (R194). -/
theorem rollBody_spell (s : State) :
    (rollBody s)[12]? = some (if s.cnf.rollState = .polling then 1 else 0) ∧
      (∀ id, s.cnf.currentRoll = some id → (rollBody s)[13]? = some (byteOf id)) ∧
      ∀ d < 64,
        (∃ b : Byte, (rollBody s)[4 + d / 8]? = some b ∧ (b.getLsbD (7 - d % 8) = true ↔ d ∈ s.cnf.report.desks)) ∧
        ∃ b : Byte, (rollBody s)[14 + d / 8]? = some b ∧ (b.getLsbD (7 - d % 8) = true ↔ d ∈ s.cnf.replySet) := by
  refine ⟨?_, fun id hid => ?_, fun d hd => ?_⟩
  · change some (flagByte (s.cnf.rollState == .polling)) = _
    simp [flagByte]
  · change some (match s.cnf.currentRoll with | some id => byteOf id | none => _) = _
    rw [hid]
  · have hbyte : d / 8 < 8 := by omega
    obtain ⟨b, hb, hreport⟩ := deskSetBytes_spell s.cnf.report.desks d hd
    obtain ⟨c, hc, hreplies⟩ := deskSetBytes_spell s.cnf.replySet d hd
    have hdesks : deskSetBytes s.cnf.report.desks <+: (rollBody s).drop 4 := ⟨_, rfl⟩
    have hset : deskSetBytes s.cnf.replySet <+: (rollBody s).drop 14 := ⟨[], rfl⟩
    exact ⟨⟨b, (getElem?_of_record hdesks hbyte).trans hb, hreport⟩, c, (getElem?_of_record hset hbyte).trans hc, hreplies⟩

/-- Settles O57: each read answers with its body, spelt out by the lemma of that body. -/
theorem snapshotReads : Obligations.SnapshotReads := by
  intro s hs
  refine ⟨fun hscores => ?_, fun hclaims hlevel => ?_, ?_, fun htables => ?_, ?_, ?_⟩
  · obtain ⟨t, ht, hreplied⟩ := command_answer 0x02 scoresBody s hs
    exact ⟨t, _, ht, hreplied, scoresBody_spell s hscores⟩
  · obtain ⟨hordered, -⟩ := hclaims
    obtain ⟨t, ht, hreplied⟩ := command_answer 0x03 claimsBody s hs
    obtain ⟨hlength, hspell⟩ := claimsBody_spell s hordered hlevel
    refine ⟨t, _, ht, hreplied, hlength, rfl, fun i e he => ?_⟩
    obtain ⟨hhead, hstatus, b, hb, houtcome, hposition⟩ := hspell i e he
    refine ⟨hhead, hstatus, b, hb, houtcome.trans ?_, hposition⟩
    cases e.outcome <;> rfl
  · exact command_answer 0x04 choicesBody s hs
  · obtain ⟨-, hentries, -⟩ := htables
    obtain ⟨t, ht, hreplied⟩ := command_answer 0x05 presenceBody s hs
    exact ⟨t, _, ht, hreplied, presenceBody_spell s hentries⟩
  · obtain ⟨t, ht, hreplied⟩ := command_answer 0x06 rollBody s hs
    exact ⟨t, _, ht, hreplied, rfl, rfl, rollBody_spell s⟩
  · exact command_answer 0x07 faultsBody s hs

end Sys2Proof.Machine

namespace Sys2Proof.Machine

open Sys2Proof.Safety

/-! ### Records scored, seated and confirmed (R137 to R141, R155) -/

/-- One record after another: the seat stands, figures in range stay in range. -/
def RecordKept (x y : TeamRec) : Prop := y.seated = x.seated ∧ (RecordInRange x → RecordInRange y)

theorem RecordKept.refl (x : TeamRec) : RecordKept x x := ⟨rfl, id⟩

theorem RecordKept.trans {x y z : TeamRec} (h : RecordKept x y) (k : RecordKept y z) : RecordKept x z :=
  ⟨k.1.trans h.1, k.2 ∘ h.2⟩

/-- Saturation brings every figure within a total's bounds (R137, R139). -/
theorem saturate_inRange (c : Int) : -Config.totalMax ≤ saturate c ∧ saturate c ≤ Config.totalMax := by
  simp only [saturate, Config.totalMax]
  omega

/-- A record that takes a saturated total, whatever becomes of its confirmation. -/
theorem withTotal_recordKept (c : Int) (u : Bool) (x : TeamRec) :
    RecordKept x { x with total := saturate c, unconfirmed := u } := by
  obtain ⟨hlow, hhigh⟩ := saturate_inRange c
  exact ⟨rfl, fun ⟨_, _, hcounts⟩ => ⟨hlow, hhigh, hcounts⟩⟩

/-- A count is held at its greatest value (R140). -/
theorem countOutcome_recordKept (o : TurnOutcome) (x : TeamRec) : RecordKept x (countOutcome o x) := by
  have hheld (n : Nat) : countUp n ≤ Config.countMax := Nat.min_le_left _ _
  cases o with
  | right => exact ⟨rfl, fun ⟨hlow, hhigh, _, hwrongs⟩ => ⟨hlow, hhigh, hheld _, hwrongs⟩⟩
  | wrong | timeout => exact ⟨rfl, fun ⟨hlow, hhigh, hrights, _⟩ => ⟨hlow, hhigh, hrights, hheld _⟩⟩
  | pass | void => exact .refl x

theorem scoreRecord_recordKept (noneg : Bool) (delta : Int) (o : TurnOutcome) (x : TeamRec) :
    RecordKept x (scoreRecord noneg delta o x) :=
  (withTotal_recordKept _ x.unconfirmed x).trans (countOutcome_recordKept o _)

theorem revealRecord_recordKept (r : Rng) (confirmed : Bool) (key : Nat) (c : ChoiceRec) (x : TeamRec) :
    RecordKept x (revealRecord r confirmed key c x) := by
  have hmark (u : Bool) {y : TeamRec} (h : RecordKept x y) : RecordKept x { y with unconfirmed := u } := h
  unfold revealRecord
  split
  · exact .refl x
  · refine hmark _ ?_
    split <;> exact scoreRecord_recordKept _ _ _ x

/-- Sixteen records after sixteen, each kept. -/
abbrev Rescored (old new : List TeamRec) : Prop := List.Forall₂ RecordKept old new

theorem Rescored.refl (records : List TeamRec) : Rescored records records :=
  List.forall₂_same.mpr fun x _ => .refl x

theorem Rescored.modifyTeam {old new : List TeamRec} (h : Rescored old new) (t : Nat) {f : TeamRec → TeamRec}
    (hf : ∀ x, RecordKept x (f x)) : Rescored old (modifyTeam t f new) := by
  obtain ⟨hlen, hget⟩ := List.forall₂_iff_get.mp h
  refine List.forall₂_iff_get.mpr ⟨by simpa [Machine.modifyTeam] using hlen, fun i h1 h2 => ?_⟩
  have hi := hget i h1 (hlen ▸ h1)
  simp only [Machine.modifyTeam, List.get_eq_getElem, List.getElem_modify] at hi ⊢
  split
  · exact hi.trans (hf _)
  · exact hi

/-- A tally page writes one saturated total after another (R153). -/
theorem tallyRecords_rescored (page : Nat) (totals : List Int) (records : List TeamRec) :
    Rescored records (tallyRecords page totals records) :=
  List.foldlRecOn _ _ (.refl records) fun _ h _ _ => h.modifyTeam _ (withTotal_recordKept _ _)

/-- A reveal scores each record by the choice record of its team (R148). -/
theorem revealed_rescored (r : Rng) (confirmed : Bool) (key : Nat) {choices : List ChoiceRec} {records : List TeamRec}
    (h : choices.length = records.length) :
    Rescored records (List.zipWith (revealRecord r confirmed key) choices records) := by
  refine List.forall₂_iff_get.mpr ⟨by simp [h], fun i h1 h2 => ?_⟩
  simp only [List.get_eq_getElem, List.getElem_zipWith]
  exact revealRecord_recordKept _ _ _ _ _

theorem Rescored.inRange {old new : List TeamRec} (h : Rescored old new) (hold : ∀ x ∈ old, RecordInRange x) :
    ∀ y ∈ new, RecordInRange y := by
  induction h with
  | nil => simp
  | cons hxy _ ih =>
    obtain ⟨hx, hrest⟩ := List.forall_mem_cons.mp hold
    exact List.forall_mem_cons.mpr ⟨hxy.2 hx, ih hrest⟩

theorem Rescored.seats {old new : List TeamRec} (h : Rescored old new) :
    new.map TeamRec.seated = old.map TeamRec.seated := by
  induction h with
  | nil => rfl
  | cons hxy _ ih => rw [List.map_cons, List.map_cons, hxy.1, ih]

/-- The scoreboard stays sound when its records are rescored and ranked anew (R142). -/
theorem rescored_scoresSound {records : List TeamRec} {s t : State} (hs : ScoresSound s)
    (h : Rescored s.scu.records records) (hprs : t.prs = s.prs) (hscu : t.scu.records = ranked records) : ScoresSound t := by
  obtain ⟨hlen, hrange, hseated, -⟩ := hs
  exact scoresSound_ranked records t (h.length_eq ▸ hlen) (h.inRange hrange) (by rw [h.seats, hseated, hprs]) hscu

/-- Confirmation touches neither totals nor seats, so every rank stands (R138, R156). -/
theorem confirmAll_scoresSound {s : State} (hs : ScoresSound s) : ScoresSound (confirmAll s) := by
  obtain ⟨hlen, hrange, hseated, hrank⟩ := hs
  refine ⟨by simpa [confirmAll] using hlen, fun x hx => ?_, ?_, fun x hx => ?_⟩
  · obtain ⟨y, hy, rfl⟩ := List.mem_map.mp hx
    exact hrange y hy
  · rw [confirmAll_prs, ← hseated]
    simp [confirmAll]
  · obtain ⟨y, hy, rfl⟩ := List.mem_map.mp hx
    refine (hrank y hy).trans ?_
    simp only [rankOf, confirmAll, State.withScu_scu, List.countP_map, Function.comp_def]

end Sys2Proof.Machine

namespace Sys2Proof.Machine

open Sys2Proof.Safety

/-! ### What a step keeps of tables and scoreboard -/

/-- The sets of the console function rise strictly, and its report counts its desks (R173, R189, R193). -/
def SetsSound (c : Cnf) : Prop :=
  c.dirty.Pairwise (· < ·) ∧ c.replySet.Pairwise (· < ·) ∧ c.report.desks.length = c.report.count

theorem insertNat_rising (n : Nat) {l : List Nat} (h : l.Pairwise (· < ·)) : (insertNat n l).Pairwise (· < ·) := by
  induction l with
  | nil => simp [insertNat]
  | cons x xs ih =>
    obtain ⟨hx, hxs⟩ := List.pairwise_cons.mp h
    unfold insertNat
    split
    case isTrue hlt =>
      refine List.pairwise_cons.mpr ⟨fun m hm => ?_, h⟩
      rcases List.mem_cons.mp hm with rfl | hm
      · exact hlt
      · exact hlt.trans (hx m hm)
    case isFalse hle =>
      split
      · exact h
      · refine List.pairwise_cons.mpr ⟨fun m hm => ?_, ih hxs⟩
        rcases (mem_insertNat n m xs).mp hm with rfl | hm
        · omega
        · exact hx m hm

/-- What a step keeps: the tables sound, and the scoreboard with them. -/
structure TablesKept (s t : State) : Prop where
  tables : TablesSound s → TablesSound t
  scores : TablesSound s → ScoresSound s → ScoresSound t

theorem TablesKept.refl (s : State) : TablesKept s s := ⟨id, fun _ => id⟩

theorem TablesKept.trans {s t u : State} (h : TablesKept s t) (k : TablesKept t u) : TablesKept s u :=
  ⟨k.tables ∘ h.tables, fun ht => k.scores (h.tables ht) ∘ h.scores ht⟩

/-- Presence table and scoreboard unchanged; choice table and console function as they should be. -/
theorem TablesKept.of_choices {s t : State} (hcht : s.cht.records.length = 16 → t.cht.records.length = 16)
    (hsets : SetsSound s.cnf → SetsSound t.cnf) (hrest : t.scu = s.scu ∧ t.prs = s.prs) : TablesKept s t := by
  obtain ⟨hscu, hprs⟩ := hrest
  refine ⟨fun ⟨hchoices, hentries, hreset, hseated, hcnf⟩ => ?_, fun _ hs => ?_⟩
  · exact ⟨hcht hchoices, hprs ▸ hentries, hprs ▸ hreset, hprs ▸ hseated, hsets hcnf⟩
  · unfold ScoresSound
    rwa [hscu, hprs]

/-- Only the console function changed, as it should. -/
theorem TablesKept.of_sets {s t : State} (hsets : SetsSound s.cnf → SetsSound t.cnf)
    (hrest : t.cht = s.cht ∧ t.scu = s.scu ∧ t.prs = s.prs) : TablesKept s t :=
  .of_choices (fun h => hrest.1 ▸ h) hsets hrest.2

/-- Tables, scoreboard and console function unchanged. -/
theorem TablesKept.of_same {s t : State} (h : t.cnf = s.cnf ∧ t.cht = s.cht ∧ t.scu = s.scu ∧ t.prs = s.prs) :
    TablesKept s t :=
  .of_sets (fun hs => h.1 ▸ hs) h.2

/-- An operation that writes of these the scoreboard alone keeps what it keeps of the scoreboard. -/
theorem TablesKept.of_scores {s t : State} (hscores : TablesSound s → ScoresSound s → ScoresSound t)
    (hrest : t.cnf = s.cnf ∧ t.cht = s.cht ∧ t.prs = s.prs) : TablesKept s t := by
  obtain ⟨hcnf, hcht, hprs⟩ := hrest
  refine ⟨fun ht => ?_, hscores⟩
  unfold TablesSound
  rwa [hcnf, hcht, hprs]

/-! ### Scores -/

theorem commitScores_tablesKept {records : List TeamRec} {s : State}
    (h : TablesSound s → ScoresSound s → Rescored s.scu.records records) : TablesKept s (commitScores records s) :=
  .of_scores (fun ht hs => rescored_scoresSound hs (h ht hs) (by simp) (by rw [commitScores_eq]; rfl)) (by simp)

theorem raiseIf_tablesKept (b : Bool) (e : Event) (s : State) : TablesKept s (raiseIf b e s) := .of_same (by simp)

/-- One team's record changed, kept in range (R142). -/
theorem modifyTeam_tablesKept (team : Nat) (f : TeamRec → TeamRec) (s : State) (hf : ∀ x, RecordKept x (f x)) :
    TablesKept s (commitScores (modifyTeam team f s.scu.records) s) :=
  commitScores_tablesKept fun _ _ => (Rescored.refl _).modifyTeam team hf

theorem scoreTurn_tablesKept (turn team : Nat) (o : TurnOutcome) (s : State) :
    TablesKept s (scoreTurn turn team o s) :=
  modifyTeam_tablesKept team _ s (scoreRecord_recordKept _ _ o)

theorem takeCheckTotal_tablesKept (team : Nat) (c : Int) (s : State) : TablesKept s (takeCheckTotal team c s) := by
  unfold takeCheckTotal
  split
  · exact .refl s
  · exact (modifyTeam_tablesKept team _ s (withTotal_recordKept c false)).trans (raiseIf_tablesKept _ _ _)

theorem takePage_tablesKept (page : Nat) (totals : List Int) (s : State) : TablesKept s (takePage page totals s) :=
  (commitScores_tablesKept fun _ _ => tallyRecords_rescored page totals _).trans (raiseIf_tablesKept _ _ _)

/-- A reveal scores sixteen records by sixteen choices (R121, R148). -/
theorem scoreReveal_tablesKept (key : Nat) (s : State) : TablesKept s (scoreReveal key s) :=
  commitScores_tablesKept fun ⟨hchoices, _⟩ ⟨hrecords, _⟩ => revealed_rescored _ _ key (hchoices.trans hrecords.symm)

theorem setTotalOp_tablesKept (team : Nat) (value : Int) (s : State) : TablesKept s (setTotalOp team value s) :=
  modifyTeam_tablesKept team _ s fun x => withTotal_recordKept value x.unconfirmed x

theorem adjustOp_tablesKept (team : Nat) (delta : Int) (s : State) : TablesKept s (adjustOp team delta s) :=
  modifyTeam_tablesKept team _ s fun x => withTotal_recordKept (x.total + delta) x.unconfirmed x

/-! ### The presence table (R155, R187 to R190) -/

/-- The seated set is worked out from the changed entries, whether the score unit is told or not (R190). -/
theorem setEntry_presence (d : Nat) (f : PresEntry → PresEntry) (s : State) :
    (setEntry d f s).prs = ⟨s.prs.entries.modify d f, seatedTeams (s.prs.entries.modify d f)⟩ := by
  unfold setEntry
  dsimp only
  split <;> rfl

/-- A changed entry is that of a desk heard, so it may differ from its reset state; seats and ranks follow the entries. -/
theorem setEntry_tablesKept (d : Nat) (f : PresEntry → PresEntry) (s : State)
    (hf : ∀ e, s.prs.entries[d]? = some e → (f e).heard = true) : TablesKept s (setEntry d f s) := by
  have hprs := setEntry_presence d f s
  constructor
  case tables =>
    rintro ⟨hchoices, hentries, hreset, -, hcnf⟩
    refine ⟨by simpa using hchoices, by simpa [hprs] using hentries, fun e he hheard => ?_, by rw [hprs], ?_⟩
    · rw [hprs] at he
      obtain ⟨i, hi⟩ := List.mem_iff_getElem?.mp he
      rw [List.getElem?_modify] at hi
      obtain ⟨x, hx, rfl⟩ := Option.map_eq_some_iff.mp hi
      by_cases hd : d = i
      · subst hd
        rw [if_pos rfl, hf x hx] at hheard
        cases hheard
      · rw [if_neg hd] at hheard ⊢
        exact hreset x (List.mem_of_getElem? hx) hheard
    · rw [setEntry_cnf]
      exact hcnf
  case scores =>
    intro _ hs
    have hrecords := (setEntry_sound d f s hs).2
    obtain ⟨hlen, hrange, -⟩ := hs
    refine scoresSound_ranked _ _ (by simpa using hlen) (fun x hx => ?_) ?_ hrecords
    · obtain ⟨i, hi, rfl⟩ := List.mem_mapIdx.mp hx
      exact hrange s.scu.records[i] (List.getElem_mem hi)
    · rw [hprs]
      exact List.ext_getElem (by simp [hlen]) (by simp)

/-- The desk has been heard, if the table has an entry for it (R188). -/
def HeardAt (d : Nat) (s : State) : Prop := ∀ e, s.prs.entries[d]? = some e → e.heard = true

theorem markHeard_heardAt (d r : Nat) (s : State) : HeardAt d (markHeard d r s) := by
  intro e he
  rw [markHeard, raiseIf_prs, setEntry_presence, List.getElem?_modify_eq] at he
  obtain ⟨x, -, rfl⟩ := Option.map_eq_some_iff.mp he
  rfl

theorem markHeard_tablesKept (d r : Nat) (s : State) : TablesKept s (markHeard d r s) :=
  (setEntry_tablesKept d _ s fun _ _ => rfl).trans (raiseIf_tablesKept _ _ _)

/-- A desk is described once it has been heard (R188, R189). -/
theorem describe_tablesKept (d : Nat) (role team : Byte) (extra : PresEntry → PresEntry) (s : State) (h : HeardAt d s)
    (hextra : ∀ e, (extra e).heard = e.heard) : TablesKept s (describe d role team extra s) := by
  unfold describe
  refine (setEntry_tablesKept d _ s fun e he => ?_).trans (raiseIf_tablesKept _ _ _)
  exact (hextra _).trans (h e he)

end Sys2Proof.Machine

namespace Sys2Proof.Machine

open Sys2Proof.Safety

/-! ### The console function's sets, through queue and handers (R38, R165, R166, R170 to R174) -/

theorem clearDirty_tablesKept (page : Nat) (s : State) : TablesKept s (clearDirty page s) :=
  .of_sets (fun ⟨hdirty, hrest⟩ => ⟨hdirty.filter _, hrest⟩) (by simp)

/-- A page met in attempt is marked dirty: one more in a rising list (R170). -/
theorem requestPage_tablesKept (p : Fin 4) (s : State) : TablesKept s (requestPage p s) := by
  unfold requestPage
  split
  case h_1 => exact .of_same (by simp)
  case h_2 => exact .of_sets (fun ⟨hdirty, hrest⟩ => ⟨insertNat_rising _ hdirty, hrest⟩) (by simp)
  case h_3 | h_4 => exact .refl s

theorem requestAllPages_tablesKept (s : State) : TablesKept s (requestAllPages s) :=
  (((requestPage_tablesKept 0 s).trans (requestPage_tablesKept 1 _)).trans (requestPage_tablesKept 2 _)).trans
    (requestPage_tablesKept 3 _)

theorem pageAttemptEnded_tablesKept (p : Fin 4) (left : Bool) (s : State) :
    TablesKept s (pageAttemptEnded p left s) := by
  unfold pageAttemptEnded
  split
  · split
    · exact (clearDirty_tablesKept _ s).trans (requestPage_tablesKept p _)
    · exact clearDirty_tablesKept _ s
  · exact .refl s

/-- The marker is none of the sets (R165). -/
theorem clearMarker_tablesKept (s : State) : TablesKept s (clearMarker s) := .of_sets id (by simp)

theorem handTimeout_tablesKept (s : State) : TablesKept s (handTimeout s) := by
  unfold handTimeout
  split
  · exact .refl s
  · dsimp only
    split
    · exact .of_sets (fun h => by rwa [← handOver_cnf _ .cnf s] at h) (by simp)
    all_goals exact .of_same (by simp)

theorem verdictDropped_tablesKept (b : Bool) (s : State) : TablesKept s (verdictDropped b s) := by
  have hclear := clearMarker_tablesKept s
  unfold verdictDropped
  split <;> split
  · exact hclear.trans (.of_same (by simp))
  · exact hclear
  · exact hclear.trans (handTimeout_tablesKept _)
  · exact hclear

theorem told_tablesKept (x : Fate) (f : QFrame) (s : State) : TablesKept s (told x f s) := by
  unfold told
  split
  case h_9 | h_10 => exact verdictDropped_tablesKept _ s
  case h_11 => exact clearDirty_tablesKept _ s
  case h_13 => exact .refl s
  all_goals exact .of_same (by simp)

theorem tellPage_tablesKept (f : QFrame) (left : Bool) (s : State) : TablesKept s (tellPage f left s) := by
  unfold tellPage
  split
  · exact pageAttemptEnded_tablesKept _ left s
  · exact .refl s

/-! ### Ends of attempts, withdrawals, the queue emptied (R37 to R50) -/

theorem setQueue_tablesKept (q : List QFrame) (s : State) : TablesKept s (setQueue q s) := .of_same (by simp)

theorem settleTx_tablesKept (s : State) : TablesKept s (settleTx s) := .of_same (by simp)

theorem enterJoined_tablesKept (s : State) : TablesKept s (enterJoined s) := .of_same (by simp)

theorem raise_tablesKept (e : Event) (s : State) : TablesKept s (raise e s) := .of_same (by simp)

theorem leave_tablesKept (x : Fate) (f : QFrame) (s : State) : TablesKept s (leave x f s) :=
  ((setQueue_tablesKept _ s).trans (told_tablesKept x f _)).trans (tellPage_tablesKept f true _)

theorem resolveAttempt_tablesKept (e : AttemptEnd) (f : QFrame) (s : State) : TablesKept s (resolveAttempt e f s) := by
  unfold resolveAttempt
  (repeat' split)
  case h_1.isTrue | h_2 | isFalse.isTrue => exact leave_tablesKept _ f s
  case h_2.isTrue => exact (raise_tablesKept _ s).trans (leave_tablesKept _ f _)
  case h_2.isFalse => exact (setQueue_tablesKept _ s).trans (tellPage_tablesKept f false _)
  case h_1.isFalse | h_1 => exact setQueue_tablesKept _ s

theorem resolve_tablesKept (e : AttemptEnd) (s : State) : TablesKept s (resolve e s) := by
  unfold resolve
  split
  · exact .refl s
  · exact resolveAttempt_tablesKept e _ s

theorem endAttempt_tablesKept (e : AttemptEnd) (s : State) : TablesKept s (endAttempt e s) :=
  (resolve_tablesKept e s).trans (settleTx_tablesKept _)

theorem withdraw_tablesKept (p : Place) (s : State) : TablesKept s (withdraw p s) := by
  unfold withdraw
  split
  · exact .refl s
  · split
    · exact setQueue_tablesKept _ s
    · have htold := (setQueue_tablesKept (removeAt p s.lcu.queue) s).trans (told_tablesKept .withdrawn ‹QFrame› _)
      dsimp only
      split
      · exact htold.trans (.of_same (by simp))
      · exact htold

theorem withdrawOwn_tablesKept (s : State) : TablesKept s (withdrawOwn s) :=
  ((withdraw_tablesKept .claim s).trans (withdraw_tablesKept .choice _)).trans (withdraw_tablesKept .pass _)

theorem foldDrop_tablesKept (q : List QFrame) (s : State) : TablesKept s (q.foldl dropFrame s) := by
  induction q generalizing s with
  | nil => exact .refl s
  | cons f q ih => exact ((raise_tablesKept _ s).trans (told_tablesKept .emptied f _)).trans (ih (dropFrame s f))

theorem emptyQueue_tablesKept (s : State) : TablesKept s (emptyQueue s) :=
  (setQueue_tablesKept [] s).trans (foldDrop_tablesKept s.lcu.queue _)

theorem enterHalted_tablesKept (s : State) : TablesKept s (enterHalted s) :=
  (TablesKept.trans (.of_same (by simp)) (emptyQueue_tablesKept (stopTimers (raise .halted (enterTx .halted s))))).trans
    (enterJoined_tablesKept _)

theorem enterMuted_tablesKept (s : State) : TablesKept s (enterMuted s) := by
  unfold enterMuted
  split
  · exact .refl s
  · exact TablesKept.trans (.of_same (by simp)) (emptyQueue_tablesKept (stopTimers (enterTx .muted s)))

theorem mute_tablesKept (s : State) : TablesKept s (mute s) := by
  unfold mute
  split
  · exact .refl s
  · exact (TablesKept.trans (.of_same (by simp)) (enterMuted_tablesKept (s.withSuu { s.suu with muted := true }))).trans
      (enterJoined_tablesKept _)

theorem checkDuplicate_tablesKept (own : Bool) (d : Nat) (s : State) : TablesKept s (checkDuplicate own d s) := by
  unfold checkDuplicate
  split
  · exact (raise_tablesKept _ s).trans (mute_tablesKept _)
  · exact .refl s

/-! ### The line (R19, R27 to R34, R44 to R48) -/

theorem takenAtLine_tablesKept (s : State) : TablesKept s (takenAtLine s) := by
  unfold takenAtLine
  split
  · exact TablesKept.trans (t := frameEnd s) (.of_same (by simp)) (endAttempt_tablesKept _ _)
  · exact .of_same (by simp)

theorem reachIdle_tablesKept (s : State) : TablesKept s (reachIdle s) := by
  have hidle : TablesKept s (s.withLif { s.lif with idleSeen := true, run := false }) := .of_same (by simp)
  have hoffer : ∀ x, TablesKept x (if x.lcu.tx = .waiting then offer x else x) := by
    intro x
    split <;> exact .of_same (by simp)
  unfold reachIdle
  dsimp only
  split
  · exact (hidle.trans (endAttempt_tablesKept _ _)).trans (hoffer _)
  · exact hidle.trans (hoffer _)

theorem breakAttempt_tablesKept (e : AttemptEnd) (s : State) : TablesKept s (breakAttempt e s) :=
  TablesKept.trans (.of_same (by simp)) (endAttempt_tablesKept e (s.withLcu { s.lcu with domFrame := retag e s }))

theorem loseArbitration_tablesKept (cell : Nat) (s : State) : TablesKept s (loseArbitration cell s) :=
  TablesKept.trans (.of_same (by simp)) (breakAttempt_tablesKept .lost _)

theorem leaveFrame_tablesKept (s : State) : TablesKept s (leaveFrame s) := .of_same (by simp)

theorem mismatch_tablesKept (cell : Nat) (r : CellReading) (s : State) : TablesKept s (mismatch cell r s) := by
  have hbreak (cells : List CellReading) : TablesKept s (breakAttempt .mismatch (stopDriving cells s)) :=
    TablesKept.trans (.of_same (by simp)) (breakAttempt_tablesKept .mismatch _)
  unfold mismatch
  dsimp only
  split
  · exact (hbreak _).trans (leaveFrame_tablesKept _)
  · exact hbreak _

theorem discard_tablesKept (a o : CellReading) (s : State) : TablesKept s (discard a o s) := by
  have hend : TablesKept s (frameEnd s) := .of_same (by simp)
  unfold discard
  split
  · exact hend.trans (endAttempt_tablesKept _ _)
  · exact hend

theorem faultAtController_tablesKept (s : State) : TablesKept s (faultAtController s) := by
  have hends := (resolve_tablesKept .lineFault s).trans (raise_tablesKept .lineFault _)
  unfold faultAtController
  dsimp only
  split
  · exact raise_tablesKept _ s
  split
  · exact hends.trans (TablesKept.trans (.of_same (by simp)) (enterHalted_tablesKept _))
  · exact hends.trans (by unfold enterRecovering; exact .of_same (by simp))

theorem recoveryFailed_tablesKept (s : State) : TablesKept s (recoveryFailed s) :=
  TablesKept.trans (.of_same (by simp)) (enterHalted_tablesKept (escalate (writeRecord .recoveryTimeout none s)))

end Sys2Proof.Machine

namespace Sys2Proof.Machine

open Sys2Proof.Safety

/-! ### The round engine (R80 to R95) -/

theorem withRng_tablesKept (r : Rng) (s : State) : TablesKept s (s.withRng r) := .of_same (by simp)

theorem enterEnded_tablesKept (s : State) : TablesKept s (enterEnded s) :=
  TablesKept.trans (.of_same (by simp))
    ((withdrawOwn_tablesKept
      ((s.withRng { s.rng with phase := .ended, answerRunning := false }).withRck { s.rck with running := false })).trans
      (raise_tablesKept _ _))

theorem advance_tablesKept (s : State) : TablesKept s (advance s) := by
  unfold advance
  split
  · exact .of_same (by simp)
  split
  · exact .of_same (by simp)
  split
  · exact enterEnded_tablesKept s
  · exact .refl s

theorem phaseAfterTurn_tablesKept (o : TurnOutcome) (s : State) : TablesKept s (phaseAfterTurn o s) := by
  unfold phaseAfterTurn
  split
  · exact .refl s
  split
  · exact enterEnded_tablesKept s
  · exact .of_same (by simp)

theorem endTurnByPass_tablesKept (t : Nat) (s : State) : TablesKept s (endTurnByPass t s) :=
  TablesKept.trans (t := closeTurn t .pass s) (.of_same (by simp)) (phaseAfterTurn_tablesKept .pass _)

theorem fullVerdict_tablesKept (turn team : Nat) (o : TurnOutcome) (c : Int) (s : State) :
    TablesKept s (fullVerdict turn team o c s) := by
  have hend : ∀ x, TablesKept x (phaseAfterTurn o (takeCheckTotal team c (scoreTurn turn team o x))) := fun x =>
    ((scoreTurn_tablesKept turn team o x).trans (takeCheckTotal_tablesKept team c _)).trans (phaseAfterTurn_tablesKept o _)
  unfold fullVerdict
  exact TablesKept.trans (.of_same (by simp)) (hend _)

theorem reachArm_tablesKept (s : State) : TablesKept s (reachArm s) := by
  unfold reachArm
  split
  · exact TablesKept.trans (t := setPhase .live s) (.of_same (by simp)) (advance_tablesKept _)
  · exact .refl s

theorem endWindow_tablesKept (s : State) : TablesKept s (endWindow s) :=
  (withRng_tablesKept { s.rng with closed := true } s).trans (advance_tablesKept _)

theorem saturateClock_tablesKept (s : State) : TablesKept s (saturateClock s) := by
  by_cases hc : s.rng.phase.closable = true
  · rw [saturateClock_closable s hc]
    exact TablesKept.trans (.of_same (by simp)) (advance_tablesKept _)
  · rw [saturateClock, if_neg hc]
    exact .of_same (by simp)

theorem answerExpiry_tablesKept (s : State) : TablesKept s (answerExpiry s) := by
  have hstop := withRng_tablesKept { s.rng with answerRunning := false, phase := .held } s
  unfold answerExpiry
  dsimp only
  split
  · exact hstop.trans (handTimeout_tablesKept _)
  · exact hstop

/-! ### What the owners of a frame do (R33) -/

/-- An OPEN empties the choice table (R121). -/
theorem openEffect_tablesKept (round : Byte) (b : OpenBlock) (s : State) : TablesKept s (openEffect round b s) := by
  unfold openEffect
  refine (withdrawOwn_tablesKept s).trans (TablesKept.trans ?_ ((raise_tablesKept _ _).trans (reachArm_tablesKept _)))
  exact .of_choices (fun _ => by simp [Cht.reset]) (by simp) (by simp)

theorem closeEffect_tablesKept (round : Byte) (point : Triple) (s : State) :
    TablesKept s (closeEffect round point s) := by
  have hclosed :=
    withRng_tablesKept { s.rng with closePoint := min s.rng.closePoint point.toNat, closed := true } s
  unfold closeEffect
  dsimp only
  split
  · split
    · exact hclosed.trans (enterEnded_tablesKept _)
    · exact hclosed.trans (advance_tablesKept _)
  · exact .refl s

theorem verdictAtConsole_tablesKept (own : Bool) (s : State) : TablesKept s (verdictAtConsole own s) := by
  unfold verdictAtConsole
  split
  · exact clearMarker_tablesKept s
  · exact .refl s

theorem verdictEffect_tablesKept (own : Bool) (round turn team outcome : Byte) (check : Half) (s : State) :
    TablesKept s (verdictEffect own round turn team outcome check s) := by
  unfold verdictEffect
  split
  case h_1 => exact verdictAtConsole_tablesKept own s
  case h_2 => exact (takeCheckTotal_tablesKept _ _ s).trans (verdictAtConsole_tablesKept own _)
  case h_3 o _ =>
    exact ((fullVerdict_tablesKept _ _ o _ s).trans (verdictAtConsole_tablesKept own _)).trans (advance_tablesKept _)

theorem supersede_tablesKept (turn : Nat) (s : State) : TablesKept s (supersede turn s) := by
  unfold supersede
  split
  · exact ((withdraw_tablesKept _ s).trans (clearMarker_tablesKept _)).trans (raise_tablesKept _ _)
  · exact .refl s

theorem passEffect_tablesKept (round turn team : Byte) (s : State) : TablesKept s (passEffect round turn team s) := by
  unfold passEffect
  split
  · exact ((endTurnByPass_tablesKept _ s).trans (supersede_tablesKept _ _)).trans (advance_tablesKept _)
  · exact .refl s

theorem claimEffect_tablesKept (desk : Desk) (round : Byte) (stamp : Triple) (team : Byte) (s : State) :
    TablesKept s (claimEffect desk round stamp team s) := by
  have hlist : TablesKept s (claimAtList desk.toNat round.toNat stamp.toNat team.toNat s) := by
    unfold claimAtList
    split <;> exact .of_same ⟨rfl, rfl, rfl, rfl⟩
  have hdesk : ∀ x, TablesKept x (claimAtDesk desk.toNat round.toNat stamp.toNat team.toNat x) := by
    intro x
    unfold claimAtDesk
    split
    · exact .of_same (by simp)
    split
    · exact withdraw_tablesKept _ x
    · exact .refl x
  exact (hlist.trans (hdesk _)).trans (advance_tablesKept _)

/-- A CHOICE taken changes a record of the choice table, and adds none (R121, R123). -/
theorem choiceEffect_tablesKept (desk : Desk) (round : Byte) (stamp : Triple) (key team : Byte) (s : State) :
    TablesKept s (choiceEffect desk round stamp key team s) := by
  have htable : TablesKept s (choiceAtTable desk.toNat round.toNat stamp.toNat key.toNat team.toNat s) := by
    unfold choiceAtTable
    split
    · exact .of_choices (fun h => (List.length_modify ..).trans h) id (by simp)
    · exact .refl s
  refine htable.trans ?_
  unfold choiceEffect choiceAtDesk
  split <;> exact .of_same ⟨rfl, rfl, rfl, rfl⟩

theorem tallyEffect_tablesKept (desk : Desk) (page : Byte) (totals : List Half) (s : State) :
    TablesKept s (tallyEffect desk page totals s) := by
  unfold tallyEffect
  split
  · exact takePage_tablesKept _ _ s
  · exact .refl s

theorem revealEffect_tablesKept (round key : Byte) (s : State) : TablesKept s (revealEffect round key s) := by
  have hkey := (withRng_tablesKept { s.rng with correctKey := some key.toNat } s).trans (withdraw_tablesKept .choice _)
  have hpages : ∀ x, TablesKept x (if consoleStation x then requestAllPages x else x) := by
    intro x
    split
    · exact requestAllPages_tablesKept x
    · exact .refl x
  unfold revealEffect
  dsimp only
  split
  · refine TablesKept.trans (hkey.trans (TablesKept.trans ?_ (enterEnded_tablesKept _))) (hpages _)
    split
    · exact .refl _
    · exact scoreReveal_tablesKept _ _
  · exact .refl s

/-- A roll begins with an empty reply set (R191, R193). -/
theorem rollEffect_tablesKept (id window : Byte) (s : State) : TablesKept s (rollEffect id window s) := by
  have hpoll : TablesKept s (startPolling id.toNat window.toNat s) := by
    unfold startPolling
    split
    · exact .of_sets (fun ⟨hdirty, _, hreport⟩ => ⟨hdirty, .nil, hreport⟩) (by simp)
    · exact .refl s
  unfold rollEffect
  dsimp only
  split
  · exact hpoll.trans (.of_same (by simp))
  · exact hpoll

/-- A reply is one more in a rising set (R193). -/
theorem addReply_tablesKept (desk id : Nat) (s : State) : TablesKept s (addReply desk id s) := by
  unfold addReply
  split
  · exact .of_sets (fun ⟨hdirty, hreplies, hreport⟩ => ⟨hdirty, insertNat_rising _ hreplies, hreport⟩) (by simp)
  · exact .refl s

theorem presentEffect_tablesKept (desk : Desk) (role team id flags : Byte) (s : State) (h : HeardAt desk.toNat s) :
    TablesKept s (presentEffect desk role team id flags s) :=
  (describe_tablesKept desk.toNat role team (presentExtra id flags) s h fun _ => rfl).trans (addReply_tablesKept _ _ _)

theorem helloEffect_tablesKept (desk : Desk) (role team : Byte) (tag : Half) (s : State) (h : HeardAt desk.toNat s) :
    TablesKept s (helloEffect desk role team tag s) := by
  have hsender := describe_tablesKept desk.toNat role team (fun e => { e with tag := tag }) s h fun _ => rfl
  unfold helloEffect
  dsimp only
  split
  · exact hsender.trans (requestAllPages_tablesKept _)
  · exact hsender

/-! ### Start-up, desk inputs, the roll's end (R5, R10, R58 to R71, R193) -/

/-- A console's confirmation apart, the end of LOADING leaves tables and scoreboard alone (R138). -/
theorem endLoading_tablesKept (s : State) : TablesKept s (endLoading s) := by
  unfold endLoading acceptIdentity
  dsimp only
  split
  · split
    · exact TablesKept.trans (.of_same (by simp)) (.of_scores (fun _ => confirmAll_scoresSound) (by simp))
    · exact .of_same (by simp)
  · exact .of_same (by simp)

theorem endJoinWait_tablesKept (s : State) : TablesKept s (endJoinWait s) := by
  unfold endJoinWait
  dsimp only
  split <;> exact .of_same (by simp)

theorem leaveRecovering_tablesKept (s : State) : TablesKept s (leaveRecovering s) := by
  unfold leaveRecovering
  dsimp only
  split <;> exact .of_same (by simp)

theorem queueClaim_tablesKept (stamp : Nat) (s : State) : TablesKept s (queueClaim stamp s) := by
  unfold queueClaim
  dsimp only
  split
  case h_1 | h_2 => exact .of_same (by simp)
  all_goals exact .refl s

theorem queueChoice_tablesKept (key stamp : Nat) (s : State) : TablesKept s (queueChoice key stamp s) := by
  unfold queueChoice
  dsimp only
  split
  case h_1 | h_2 | h_3 => exact .of_same (by simp)
  all_goals exact .refl s

theorem judge_tablesKept (d : DeskInput) (time : Nat) (s : State) : TablesKept s (judge d time s) := by
  unfold judge judgeBuzz judgeKey
  dsimp only
  (repeat' split)
  any_goals exact .of_same ⟨rfl, rfl, rfl, rfl⟩
  · exact TablesKept.trans (t := startHold s) (.of_same ⟨rfl, rfl, rfl, rfl⟩) (queueClaim_tablesKept _ _)
  · exact queueChoice_tablesKept _ _ s

theorem setInput_tablesKept (d : DeskInput) (i : Input) (s : State) : TablesKept s (setInput d i s) :=
  .of_same ⟨rfl, rfl, rfl, rfl⟩

theorem acceptPress_tablesKept (d : DeskInput) (capture : Nat) (s : State) : TablesKept s (acceptPress d capture s) := by
  unfold acceptPress
  dsimp only
  split
  · exact (setInput_tablesKept d _ s).trans (judge_tablesKept d capture _)
  · exact setInput_tablesKept d _ s

theorem acceptRelease_tablesKept (d : DeskInput) (s : State) : TablesKept s (acceptRelease d s) := by
  unfold acceptRelease
  dsimp only
  split <;> exact .of_same ⟨rfl, rfl, rfl, rfl⟩

theorem holdEnd_tablesKept (s : State) : TablesKept s (holdEnd s) := by
  have hend : TablesKept s (endHold s) := .of_same ⟨rfl, rfl, rfl, rfl⟩
  have hpass : ∀ turn x, TablesKept x (queuePass turn x) := by
    intro turn x
    unfold queuePass
    dsimp only
    split
    case h_1 | h_2 => exact .of_same (by simp)
    all_goals exact .refl x
  unfold holdEnd
  split
  · exact hend.trans (hpass _ _)
  · exact hend

/-- The report that a roll leaves counts the replies it holds; the next set is empty (R193). -/
theorem endRoll_tablesKept (s : State) : TablesKept s (endRoll s) := by
  refine .of_sets (fun ⟨hdirty, _, hreport⟩ => ⟨hdirty, .nil, ?_⟩) ⟨rfl, rfl, rfl⟩
  change (rollReport s.cnf).desks.length = (rollReport s.cnf).count
  unfold rollReport
  split
  · exact hreport
  · rfl

/-! ### The command port (R159 to R204) -/

theorem answer_tablesKept (code : Byte) (rc : ReplyCode) (body : List Byte) {s u : State} (h : TablesKept s u) :
    TablesKept s (answer code rc body u) := h.trans (.of_same (by simp))

theorem handCommand_tablesKept (code : Byte) (c : Content) (body : List Byte) (f : State → State) (s : State)
    (hf : ∀ x, TablesKept x (f x)) : TablesKept s (handCommand code c body f s) := by
  unfold handCommand
  split
  · exact answer_tablesKept _ _ _ (.refl s)
  · have hover : TablesKept s (handOver c .cnf s) := .of_same (by simp)
    exact answer_tablesKept _ _ _ (hover.trans (hf _))

theorem storeRead_tablesKept (row : Byte) (s : State) : TablesKept s (storeRead row s) := by
  unfold storeRead
  (repeat' split) <;> exact .of_same ⟨rfl, rfl, rfl, rfl⟩

theorem storeWrite_tablesKept (row : Byte) (value : Half) (setup : Bool) (s : State) :
    TablesKept s (storeWrite row value setup s) := by
  unfold storeWrite
  (repeat' split) <;> exact .of_same ⟨rfl, rfl, rfl, rfl⟩

theorem openRound_tablesKept (block : OpenBlock) (s : State) : TablesKept s (openRound block s) := by
  unfold openRound
  split
  · exact handCommand_tablesKept _ _ _ _ s fun _ => .of_sets id (by simp)
  · exact answer_tablesKept _ _ _ (.refl s)

theorem closeRound_tablesKept (s : State) : TablesKept s (closeRound s) := by
  unfold closeRound
  split
  · exact handCommand_tablesKept _ _ _ _ s .refl
  · exact answer_tablesKept _ _ _ (.refl s)

theorem revealRound_tablesKept (key : Byte) (s : State) : TablesKept s (revealRound key s) := by
  unfold revealRound
  (repeat' split)
  · exact answer_tablesKept _ _ _ (.refl s)
  · exact handCommand_tablesKept _ _ _ _ s .refl
  · exact answer_tablesKept _ _ _ (.refl s)

theorem hostVerdict_tablesKept (outcome expected : Byte) (s : State) :
    TablesKept s (hostVerdict outcome expected s) := by
  unfold hostVerdict
  split
  case h_1 | h_2 => exact answer_tablesKept _ _ _ (.refl s)
  case h_3 =>
    refine handCommand_tablesKept _ _ _ _ s fun x => ?_
    unfold hostVerdictHanded
    split <;> exact .of_sets id ⟨rfl, rfl, rfl⟩

theorem rollCall_tablesKept (window : Byte) (s : State) : TablesKept s (rollCall window s) := by
  unfold rollCall
  split
  · exact answer_tablesKept _ _ _ (.refl s)
  · exact handCommand_tablesKept _ _ _ _ s fun _ => .of_sets id (by simp)

theorem setTotal_tablesKept (team : Byte) (value : Half) (s : State) : TablesKept s (setTotal team value s) := by
  unfold setTotal
  split
  · exact answer_tablesKept _ _ _ ((setTotalOp_tablesKept _ _ s).trans (requestPage_tablesKept _ _))
  · exact answer_tablesKept _ _ _ (.refl s)

theorem adjust_tablesKept (team : Byte) (delta : Half) (s : State) : TablesKept s (adjust team delta s) := by
  unfold adjust
  split
  · exact answer_tablesKept _ _ _ ((adjustOp_tablesKept _ _ s).trans (requestPage_tablesKept _ _))
  · exact answer_tablesKept _ _ _ (.refl s)

/-! ### All commands -/

theorem refresh_tablesKept (s : State) : TablesKept s (refresh s) := .of_same (by simp)

theorem when_tablesKept {b : Bool} {f : State → State} {s t : State} (h : when b f s = .next t)
    (hf : TablesKept s (f s)) : TablesKept s t := by
  rcases when_next b f s with hw | hw <;> rw [hw] at h <;> cases h
  · exact hf.trans (refresh_tablesKept _)
  · exact .refl s

/-- A taking keeps what its owners keep; they are told of the frame once its sender has been heard (R33, R188). -/
theorem takes_tablesKept {f : Frame} {eff : State → State} {s t : State} (h : takes f eff s = .next t)
    (he : ∀ x, HeardAt f.desk.toNat x → TablesKept x (eff x)) : TablesKept s t := by
  refine when_tablesKept h ?_
  have hm := (takenAtLine_tablesKept s).trans (markHeard_tablesKept f.desk.toNat f.round.toNat _)
  refine TablesKept.trans ?_ (checkDuplicate_tablesKept _ _ _)
  split
  · exact hm.trans (he _ (markHeard_heardAt _ _ _))
  · exact hm

theorem command_tablesKept {f : State → State} {s t : State} (h : command f s = .next t) (hf : TablesKept s (f s)) :
    TablesKept s t := when_tablesKept h hf

theorem consoleCommand_tablesKept {code : Byte} {f : State → State} {s t : State}
    (h : consoleCommand code f s = .next t) (hf : TablesKept s (f s)) : TablesKept s t := by
  refine command_tablesKept h ?_
  split
  · exact hf
  · exact answer_tablesKept _ _ _ (.refl s)

/-- Every command keeps tables and scoreboard sound: those that write them by what they write, a reset by its reset values,
the others by leaving them alone. -/
theorem exec_tablesKept (c : Instr) (s t : State) (h : exec c s = .next t) : TablesKept s t := by
  cases c with
  | powerOnReset | resetN | restart =>
    rcases exec_reset _ s t rfl h with rfl | ⟨_, _, _, _, rfl⟩
    · exact .refl _
    · exact ⟨fun _ => reset_tablesSound, fun _ _ => reset_scoresSound⟩
  | openTaken desk round block => exact takes_tablesKept h fun x _ => openEffect_tablesKept round block x
  | closeTaken desk round point => exact takes_tablesKept h fun x _ => closeEffect_tablesKept round point x
  | verdictTaken desk round turn team outcome check =>
    exact takes_tablesKept h fun x _ => verdictEffect_tablesKept _ round turn team outcome check x
  | passTaken desk round turn team => exact takes_tablesKept h fun x _ => passEffect_tablesKept round turn team x
  | claimTaken desk round stamp team => exact takes_tablesKept h fun x _ => claimEffect_tablesKept desk round stamp team x
  | choiceTaken desk round stamp key team =>
    exact takes_tablesKept h fun x _ => choiceEffect_tablesKept desk round stamp key team x
  | tallyTaken desk round page a b c d => exact takes_tablesKept h fun x _ => tallyEffect_tablesKept desk page _ x
  | revealTaken desk round key => exact takes_tablesKept h fun x _ => revealEffect_tablesKept round key x
  | rollTaken desk round id window => exact takes_tablesKept h fun x _ => rollEffect_tablesKept id window x
  | presentTaken desk round role team id flags =>
    exact takes_tablesKept h (presentEffect_tablesKept desk role team id flags)
  | helloTaken desk round role team tag => exact takes_tablesKept h (helloEffect_tablesKept desk role team tag)
  | armReached => exact when_tablesKept h (reachArm_tablesKept s)
  | windowEnd => exact when_tablesKept h (endWindow_tablesKept s)
  | roundClockSaturation => exact when_tablesKept h (saturateClock_tablesKept s)
  | settleDeadline => exact when_tablesKept h (f := grant) (.of_same (by simp))
  | settleOut => exact when_tablesKept h (enterEnded_tablesKept s)
  | answerClockExpiry => exact when_tablesKept h (answerExpiry_tablesKept s)
  | pressAccepted d => exact when_tablesKept h (acceptPress_tablesKept d _ s)
  | releaseAccepted d => exact when_tablesKept h (acceptRelease_tablesKept d s)
  | passHoldEnd => exact when_tablesKept h (holdEnd_tablesKept s)
  | loadingReadEnd => exact when_tablesKept h (endLoading_tablesKept s)
  | joiningIdleWaitEnd => exact when_tablesKept h (endJoinWait_tablesKept s)
  | lineIdle => exact when_tablesKept h (reachIdle_tablesKept s)
  | arbitrationLost cell => exact when_tablesKept h (loseArbitration_tablesKept cell s)
  | bitMismatch cell pulse => exact when_tablesKept h (mismatch_tablesKept cell _ s)
  | frameDiscarded cells ack objection => exact when_tablesKept h (discard_tablesKept _ _ s)
  | lineFault =>
    unfold exec execLineFault at h
    exact when_tablesKept h
      (TablesKept.trans (t := faultAtLine s) (.of_same ⟨rfl, rfl, rfl, rfl⟩) (faultAtController_tablesKept _))
  | recoveryQuietEnd => exact when_tablesKept h (leaveRecovering_tablesKept s)
  | recoveryDeadline => exact when_tablesKept h (recoveryFailed_tablesKept s)
  | rollWindowExpiry => exact when_tablesKept h (endRoll_tablesKept s)
  | blinkBaseHalfPeriod =>
    cases h
    have hblink : TablesKept s (blinkOn s) := .of_same ⟨rfl, rfl, rfl, rfl⟩
    exact hblink.trans (refresh_tablesKept _)
  | roundClockTick | answerClockStep | inputFallingEdge | inputRisingEdge | jumpLockEnd | arbitrationWon | slotsReached
  | startMarkRecognized | objectionRunBegun | storeWriteEnd | faultMemoryExpiry | droppedFrameFlashEnd | displayUpdateEnd
  | transferStart | transferEndNoCommand | unknownCommand =>
    simp only [exec, execRoundClockTick, execAnswerClockStep, execInputFallingEdge, execInputRisingEdge, execJumpLockEnd,
      execArbitrationWon, execSlotsReached, execStartMarkRecognized, execObjectionRunBegun, execStoreWriteEnd,
      execFaultMemoryExpiry, execDroppedFrameFlashEnd, execDisplayUpdateEnd, execTransferStart, execTransferEndNoCommand,
      execUnknownCommand] at h
    exact when_tablesKept h (.of_same ⟨rfl, rfl, rfl, rfl⟩)
  | lineLevelChange change =>
    cases change with
    | toDominant ns => exact when_tablesKept h (f := lineDominant ns) (.of_same (by simp))
    | toRecessive ns => exact when_tablesKept h (f := lineRecessive ns) (.of_same (by simp))
  | nop | status | readScores | readClaims | readChoices | readPresence | readRollReport | readFaults | clearFaults
  | readEvents | clearEvents | setEventMask =>
    simp only [exec, execNop, execStatus, execReadScores, execReadClaims, execReadChoices, execReadPresence,
      execReadRollReport, execReadFaults, execClearFaults, execReadEvents, execClearEvents, execSetEventMask] at h
    exact command_tablesKept h (.of_same ⟨rfl, rfl, rfl, rfl⟩)
  | storeRead row => exact command_tablesKept h (storeRead_tablesKept row s)
  | storeWrite row value setup => exact command_tablesKept h (storeWrite_tablesKept row value setup s)
  | openRound block => exact consoleCommand_tablesKept h (openRound_tablesKept block s)
  | closeRound => exact consoleCommand_tablesKept h (closeRound_tablesKept s)
  | verdictCommand outcome expected => exact consoleCommand_tablesKept h (hostVerdict_tablesKept outcome expected s)
  | revealCommand key => exact consoleCommand_tablesKept h (revealRound_tablesKept key s)
  | rollCall window => exact consoleCommand_tablesKept h (rollCall_tablesKept window s)
  | setTotal team value => exact consoleCommand_tablesKept h (setTotal_tablesKept team value s)
  | adjust team delta => exact consoleCommand_tablesKept h (adjust_tablesKept team delta s)
  | sendTally => exact consoleCommand_tablesKept h (answer_tablesKept _ _ _ (requestAllPages_tablesKept s))
  | clearRollReport =>
    rw [exec_clearRollReport] at h
    exact consoleCommand_tablesKept h (answer_tablesKept _ _ _ (.of_sets id (by simp)))

/-- Settles O9: a step is a command, each keeping tables and scoreboard sound (`exec_tablesKept`), or the ageing of an edge. -/
theorem scoresAndTablesStaySound : Obligations.ScoresAndTablesStaySound := by
  have hkept : ∀ s t : State, step s = .next t → TablesKept s t := by
    intro s t h
    rcases step_cases s t h with rfl | ⟨c, rest, hc⟩
    · exact .of_same (by simp)
    · exact TablesKept.trans (t := s.withPending rest) (.of_same (by simp)) (exec_tablesKept c _ t hc)
  exact ⟨fun s t ht h => (hkept s t h).tables ht, fun s t ht hs h => (hkept s t h).scores ht hs⟩

end Sys2Proof.Machine

namespace Sys2Proof.Machine

open Sys2Proof.Safety

/-! ### Deltas (R139) -/

theorem saturate_of_lt {x : Int} (h : x < -9999) : saturate x = -9999 := by
  simp only [saturate, Config.totalMax]
  omega

theorem saturate_of_gt {x : Int} (h : 9999 < x) : saturate x = 9999 := by
  simp only [saturate, Config.totalMax]
  omega

theorem saturate_of_mem {x : Int} (h1 : -9999 ≤ x) (h2 : x ≤ 9999) : saturate x = x := by
  simp only [saturate, Config.totalMax]
  omega

theorem applyDelta_eq (noneg : Bool) (total delta : Int) :
    applyDelta noneg total delta =
      saturate (if noneg = true ∧ delta < 0 ∧ total + delta < 0 then 0 else total + delta) := by
  simp [applyDelta, and_assoc]

/-- A delta leaves a total within its limits. -/
theorem applyDelta_inRange (noneg : Bool) (total delta : Int) :
    -9999 ≤ applyDelta noneg total delta ∧ applyDelta noneg total delta ≤ 9999 := saturate_inRange _

/-! ### Ranks (R156) -/

/-- Is this team seated and strictly ahead of that total? -/
def TeamRec.ahead (total : Int) (y : TeamRec) : Bool := y.seated && decide (total < y.total)

/-- Is this team seated and at that total? -/
def TeamRec.level (total : Int) (y : TeamRec) : Bool := y.seated && y.total == total

theorem rankOf_unseated (records : List TeamRec) {x : TeamRec} (h : x.seated = false) : rankOf records x = 0 := by
  rw [rankOf, h]
  rfl

theorem rankOf_seated (records : List TeamRec) {x : TeamRec} (h : x.seated = true) :
    rankOf records x = 1 + records.countP (TeamRec.ahead x.total) := if_pos h

/-- The unseated play no part in a rank. -/
theorem rankOf_filter_seated (records : List TeamRec) (x : TeamRec) :
    rankOf (records.filter TeamRec.seated) x = rankOf records x := by
  unfold rankOf
  rw [List.countP_filter]
  congr 2
  refine List.countP_congr fun y _ => ?_
  simp only [Bool.and_eq_true]
  tauto

/-- Two kinds that exclude each other are together no more than a kind that holds both. -/
theorem countP_add_countP_le {α : Type} {p q r : α → Bool} (h : ∀ a, (p a).toNat + (q a).toNat ≤ (r a).toNat)
    (l : List α) : l.countP p + l.countP q ≤ l.countP r := by
  induction l with
  | nil => exact Nat.le_refl 0
  | cons a l ih =>
    have ha := h a
    simp only [List.countP_cons, Bool.toNat, Bool.cond_eq_ite] at ha ⊢
    omega

/-- Whoever is strictly ahead of a total, or at it, is strictly ahead of every lower one. -/
theorem ahead_add_level_le_ahead (records : List TeamRec) {total lower : Int} (h : lower < total) :
    records.countP (TeamRec.ahead total) + records.countP (TeamRec.level total) ≤
      records.countP (TeamRec.ahead lower) := by
  refine countP_add_countP_le (fun y => ?_) records
  unfold TeamRec.ahead TeamRec.level
  rcases lt_trichotomy total y.total with hahead | heq | hbehind
  · have hne : (y.total == total) = false := beq_eq_false_iff_ne.mpr hahead.ne'
    cases y.seated <;> simp [hahead, hne, h.trans hahead]
  · cases y.seated <;> simp [← heq, h]
  · have hne : (y.total == total) = false := beq_eq_false_iff_ne.mpr hbehind.ne
    cases y.seated <;> simp [hbehind.not_gt, hne]

/-- Whoever is strictly ahead of a total, or at it, is seated. -/
theorem ahead_add_level_le_seated (records : List TeamRec) (total : Int) :
    records.countP (TeamRec.ahead total) + records.countP (TeamRec.level total) ≤ records.countP TeamRec.seated :=
  (ahead_add_level_le_ahead records (sub_one_lt total)).trans
    (List.countP_mono_left fun _ _ h => (Bool.and_eq_true_iff.mp h).1)

/-- A seated team of the scoreboard ranks no lower than the seated teams are many. -/
theorem rankOf_le (records : List TeamRec) {x : TeamRec} (hx : x ∈ records) (h : x.seated = true) :
    rankOf records x ≤ records.countP TeamRec.seated := by
  have hself : 1 ≤ records.countP (TeamRec.level x.total) :=
    List.one_le_countP_iff.mpr ⟨x, hx, by simp [TeamRec.level, h]⟩
  have hsum := ahead_add_level_le_seated records x.total
  rw [rankOf_seated records h]
  omega

/-- Nobody ahead makes rank 1. -/
theorem rankOf_leader (records : List TeamRec) {x : TeamRec} (h : x.seated = true)
    (hlead : ∀ y ∈ records, y.seated = true → y.total ≤ x.total) : rankOf records x = 1 := by
  have hnone : records.countP (TeamRec.ahead x.total) = 0 :=
    List.countP_eq_zero.mpr fun y hy => by simpa [TeamRec.ahead] using hlead y hy
  rw [rankOf_seated records h, hnone]

/-- Settles O16: deltas by the three ranges of `saturate`, ranks by counting who is ahead (`rankOf_seated`). -/
theorem deltasAndRanks : Obligations.DeltasAndRanks := by
  refine ⟨fun noneg total delta => ?_, fun records x hx =>
    ⟨rankOf_unseated records, fun hseated => ⟨?_, ?_, ?_, rankOf_leader records hseated⟩, rankOf_filter_seated records x,
      fun y _ hxs hys => ⟨fun htie => ?_, fun hbehind => ?_⟩⟩⟩
  · rw [applyDelta_eq]
    exact ⟨saturate_of_lt, saturate_of_gt, saturate_of_mem⟩
  · rw [← List.countP_eq_length_filter, List.countP_filter, rankOf_seated records hseated]
    congr 2
    funext y
    exact Bool.and_comm _ _
  · rw [rankOf_seated records hseated]
    exact Nat.le_add_right 1 _
  · rw [← List.countP_eq_length_filter]
    exact rankOf_le records hx hseated
  · rw [rankOf_seated records hxs, rankOf_seated records hys, htie]
  · rw [rankOf_seated records hxs, rankOf_seated records hys, Nat.add_assoc]
    exact Nat.add_le_add_left (ahead_add_level_le_ahead records hbehind) 1

end Sys2Proof.Machine

namespace Sys2Proof.Machine

/-! ### The rebound value (R143) -/

/-- With P at most 100 no step of the chain rises. -/
theorem reboundChain_antitone {p : Nat} (v : Nat) (hp : p ≤ 100) : Antitone (reboundChain v p) :=
  antitone_nat_of_succ_le fun k => Nat.div_le_of_le_mul <| by
    rw [Nat.mul_comm 100]
    exact Nat.mul_le_mul_left _ hp

/-- With P at 0 nothing is left after the first step. -/
theorem reboundChain_zero_percent (v : Nat) {k : Nat} (h : 1 ≤ k) : reboundChain v 0 k = 0 := by
  obtain ⟨j, rfl⟩ := Nat.exists_eq_add_of_le' h
  rw [reboundChain, Nat.mul_zero, Nat.zero_div]

/-- Raised to 1 at most, where V is above 0, the value does not pass V. -/
theorem reboundValue_le {p : Nat} (v k : Nat) (hp : p ≤ 100) : reboundValue v p k ≤ v := by
  unfold reboundValue
  split
  case isTrue h => exact h.2.1
  case isFalse => exact reboundChain_antitone v hp (Nat.zero_le k)

/-- Settles O14: the chain is `reboundChain`, which never rises (`reboundChain_antitone`). -/
theorem reboundValue_is_raised_chain : Obligations.ReboundValue := by
  intro v p chain hzero hstep hp k _
  have hchain : ∀ j, chain j = reboundChain v p j := fun j => by
    induction j with
    | zero => exact hzero
    | succ j ih => rw [hstep, ih, reboundChain]
  obtain rfl : chain = reboundChain v p := funext hchain
  have hfalls := reboundChain_antitone v hp
  refine ⟨fun h1 h2 h3 => if_pos ⟨h1, h2, h3⟩, fun h => if_neg h, ?_, fun j hj h0 => ?_, hfalls k.le_succ,
    reboundValue_le v k hp⟩
  · rintro rfl h1
    rw [reboundValue, if_neg fun h => h.1.false, reboundChain_zero_percent v h1]
  · exact Nat.le_zero.mp (h0 ▸ hfalls hj)

end Sys2Proof.Machine

namespace Sys2Proof.Machine

/-! ### The speed bonus (R147) -/

/-- The elapsed time as a whole number: 0 at least, the window at most. -/
theorem elapsedTicks_cast (r : Rng) (stamp : Nat) :
    (elapsedTicks r stamp : Int) = min r.windowTicks (max 0 (stamp * r.grain - r.armTicks)) := by
  unfold elapsedTicks
  omega

theorem elapsedTicks_le (r : Rng) (stamp : Nat) : elapsedTicks r stamp ≤ r.windowTicks := Nat.min_le_left _ _

theorem speedBonus_cast (r : Rng) (stamp : Nat) :
    (speedBonus r stamp : Int) = r.b * (r.windowTicks - elapsedTicks r stamp) / r.windowTicks := by
  rw [speedBonus, Int.natCast_ediv, Int.natCast_mul, Int.ofNat_sub (elapsedTicks_le r stamp)]

theorem speedBonus_le (r : Rng) (stamp : Nat) : speedBonus r stamp ≤ r.b :=
  Nat.div_le_of_le_mul <| by
    rw [Nat.mul_comm r.windowTicks]
    exact Nat.mul_le_mul_left _ (Nat.sub_le _ _)

/-- A stamp no later than the arm earns the bonus in full. -/
theorem speedBonus_at_arm (r : Rng) (stamp : Nat) (hw : 0 < r.windowTicks) (h : stamp * r.grain ≤ r.armTicks) :
    speedBonus r stamp = r.b := by
  have he : elapsedTicks r stamp = 0 := by simp [elapsedTicks, Nat.sub_eq_zero_of_le h]
  rw [speedBonus, he, Nat.sub_zero, Nat.mul_div_cancel _ hw]

/-- The first tick of an accepted stamp's quantum comes before the close point (R102, R147). -/
theorem stampInBounds_lt_closePoint {r : Rng} {stamp : Nat} (h : stampInBounds r stamp = true) (hg : 0 < r.grain) :
    stamp * r.grain < r.closePoint := by
  obtain ⟨-, hclose, hlast⟩ := (stampInBounds_iff r stamp).mp h
  have hmul := (Nat.le_div_iff_mul_le hg).mp hlast
  omega

/-- A window is 1 to 1,677 tenths of a second long: no arm delay cuts it to nothing (R75, R76). -/
theorem blockWindow_bounds (b : OpenBlock) : 1 ≤ blockWindow b ∧ blockWindow b ≤ 1677 := by
  have harm := b.armDelay.isLt
  unfold blockWindow clamp Config.clockMax
  omega

/-! ### The window ticks, untouched by queue and handers (R37 to R50, R147) -/

@[simp] theorem told_withdrawn_rng (f : QFrame) (s : State) : (told .withdrawn f s).rng = s.rng := by
  unfold told
  split <;> simp_all

/-- A withdrawal leaves the round context alone (R39). -/
@[simp] theorem withdraw_rng (p : Place) (s : State) : (withdraw p s).rng = s.rng := by
  unfold withdraw
  dsimp only
  (repeat' split) <;> simp

theorem enterEnded_windowTicks (s : State) : (enterEnded s).rng.windowTicks = s.rng.windowTicks := by
  simp [enterEnded, withdrawOwn]

/-- What follows at an instant of a round leaves its window alone. -/
theorem advance_windowTicks (s : State) : (advance s).rng.windowTicks = s.rng.windowTicks := by
  unfold advance
  split
  · rfl
  split
  · unfold grant
    split <;> rfl
  split
  · exact enterEnded_windowTicks s
  · rfl

/-- A CLOSE moves the close point, not the window (R82, R147). -/
theorem closeEffect_windowTicks (round : Byte) (point : Triple) (s : State) :
    (closeEffect round point s).rng.windowTicks = s.rng.windowTicks := by
  unfold closeEffect
  split
  · dsimp only
    split
    · exact enterEnded_windowTicks _
    · exact advance_windowTicks _
  · rfl

/-- Settles O15: the elapsed time by `elapsedTicks_cast`, the window by `blockWindow_bounds` and `closeEffect_windowTicks`. -/
theorem speedBonus_is_exact_share : Obligations.SpeedBonus := by
  refine ⟨fun r stamp e hw hbefore hwithin hafter => ?_, fun number block => ?_, closeEffect_windowTicks⟩
  · have he : e = elapsedTicks r stamp := by
      have hcast := elapsedTicks_cast r stamp
      omega
    refine ⟨he ▸ speedBonus_cast r stamp, speedBonus_le r stamp, fun h => speedBonus_at_arm r stamp hw ?_,
      fun hstamp hg hclose => ?_⟩
    · exact_mod_cast h
    · have hlt := stampInBounds_lt_closePoint hstamp hg
      have hcast := elapsedTicks_cast r stamp
      omega
  · obtain ⟨hlow, hhigh⟩ := blockWindow_bounds block
    have hwindow : (loadRound number block).windowTicks = blockWindow block * 10000 := rfl
    have hb : (loadRound number block).b ≤ 999 := Nat.min_le_left _ _
    have hproduct := Nat.mul_le_mul hb (Nat.mul_le_mul_right 10000 hhigh)
    rw [hwindow]
    omega

end Sys2Proof.Machine

namespace Sys2Proof.Machine

open Sys2Proof.Safety

/-! ### A verdict's check total on the line and at the console (R150, R157, R168) -/

/-- A total fits the sixteen bits of a check total (R139, R168). -/
theorem toInt_ofInt_applyDelta (noneg : Bool) (total delta : Int) :
    (BitVec.ofInt 16 (applyDelta noneg total delta)).toInt = applyDelta noneg total delta := by
  obtain ⟨hlow, hhigh⟩ := applyDelta_inRange noneg total delta
  exact BitVec.toInt_ofInt_eq_self (by decide) (by omega) (by omega)

theorem byteOf_toNat {n : Nat} (h : n ≤ 16) : (byteOf n).toNat = n := by
  simp only [byteOf, BitVec.toNat_ofNat]
  omega

/-- The console fills in the total that its own record has once the turn is scored (R157). -/
theorem checkTotalFor_eq (s : State) (turn team : Nat) (o : TurnOutcome) :
    checkTotalFor s turn team o = (scoredRecord s.rng turn o (s.scu.team team)).total := by
  rw [checkTotalFor, turnDelta_eq]
  rfl

/-- A check total that is within the limits stands for itself (R150). -/
theorem checkOf_eq_toInt {c : Half} {noneg : Bool} {total delta : Int} (h : c.toInt = applyDelta noneg total delta) :
    checkOf c = c.toInt := by
  obtain ⟨hlow, hhigh⟩ := applyDelta_inRange noneg total delta
  exact saturate_of_mem (h ▸ hlow) (h ▸ hhigh)

/-- A team's record after it was written and the ranks worked out anew. -/
theorem ranked_set_team (records : List TeamRec) (h : records.length = 16) (x : TeamRec) (team : Nat) (h1 : 1 ≤ team)
    (h2 : team ≤ 16) :
    (⟨ranked (records.set (team - 1) x)⟩ : Scu).team team =
      { x with rank := rankOf (records.set (team - 1) x) x } := by
  have hi : team - 1 < records.length := by omega
  simp [Scu.team, ranked, List.getD, hi]

/-- The team's record after a verdict in full: scored, and compared where the station is no console (R145, R150, R152). -/
theorem fullVerdict_team (turn team : Nat) (o : TurnOutcome) (check : Half) (s : State) (h : ScoresSound s) (h1 : 1 ≤ team)
    (h2 : team ≤ 16) (h3 : turn ≤ 16) :
    ∃ k, (fullVerdict turn team o check.toInt s).scu.team team = { finalRecord turn team o check s with rank := k } := by
  have hscu : (fullVerdict turn team o check.toInt s).scu =
      ⟨ranked (s.scu.records.set (team - 1) (finalRecord turn team o check s))⟩ := by
    rw [fullVerdict_eq turn team o check s h h1 h2 h3]
    split
    · rw [enterEnded_scu]
      rfl
    · rfl
  exact ⟨_, hscu ▸ ranked_set_team _ h.1 _ team h1 h2⟩

theorem finalRecord_console (turn team : Nat) (o : TurnOutcome) (check : Half) (s : State)
    (h : s.suu.identity.role = .console) :
    finalRecord turn team o check s = scoredRecord s.rng turn o (s.scu.team team) := if_pos h

theorem finalRecord_elsewhere (turn team : Nat) (o : TurnOutcome) (check : Half) (s : State)
    (h : s.suu.identity.role ≠ .console) :
    finalRecord turn team o check s =
      { scoredRecord s.rng turn o (s.scu.team team) with total := checkOf check, unconfirmed := false } := if_neg h

/-- Settles O18: the check total is the console's own scored total (`checkTotalFor_eq`), and a record after the verdict is
that of `fullVerdict_team`. -/
theorem lineFollowsConsole : Obligations.LineFollowsConsole := by
  intro console station turn team o hconsole hstation hrole helse _ h3 h1 h2
  let c : Half := BitVec.ofInt 16 (checkTotalFor console turn team o)
  have hc : c.toInt = checkTotalFor console turn team o := toInt_ofInt_applyDelta _ _ _
  obtain ⟨j, hj⟩ := fullVerdict_team turn team o c console hconsole h1 h2 h3
  obtain ⟨k, hk⟩ := fullVerdict_team turn team o c station hstation h1 h2 h3
  rw [finalRecord_console _ _ _ _ _ hrole] at hj
  rw [finalRecord_elsewhere _ _ _ _ _ helse] at hk
  refine ⟨c, ?_, ?_, ?_, ?_⟩
  · rw [fillContent, byteOf_toNat h3, byteOf_toNat h2]
  · rw [hj, hc, checkTotalFor_eq]
  · rw [hk]
    exact checkOf_eq_toInt hc
  · rw [hk]

end Sys2Proof.Machine

namespace Sys2Proof.Machine

open Sys2Proof.Safety

/-! ### The desk phase by the lines of its tables (R179 to R181) -/

@[simp] theorem firstLine_cons (b : Bool) (d : DeskPhase) (lines : List (Bool × DeskPhase)) :
    firstLine ((b, d) :: lines) = if b then some d else firstLine lines := by
  cases b <;> rfl

/-- Teams stand once, so the own team's entry alone decides whether one of its team is in this status. -/
theorem ownIs_eq (status : ClaimStatus) {s : State} (h : ListOrdered s.clt.entries) :
    ownIs status s = ((ownEntry s).map Entry.status == some status) := by
  unfold ownIs
  cases hown : ownEntry s with
  | none =>
    have hno := entryOf_none hown
    simpa using fun e he ht => absurd ht (hno e he)
  | some e =>
    obtain ⟨he, ht⟩ := entryOf_some hown
    rw [Bool.eq_iff_iff]
    simp only [List.any_eq_true, Bool.and_eq_true, beq_iff_eq, Option.map_some, Option.some.injEq]
    constructor
    · rintro ⟨x, hx, hxt, hxs⟩
      rw [← listOrdered_unique h hx he (hxt.trans ht.symm), hxs]
    · exact fun hs => ⟨e, he, ht, hs⟩

theorem noOwnEntry_eq (s : State) :
    (s.clt.entries.all fun e => e.team != s.suu.identity.team) = (ownEntry s).isNone := by
  rw [Bool.eq_iff_iff]
  simp [ownEntry, entryOf]

/-- The first line of R180 that holds is the desk phase of a BUZZ round, by the status of the own team's entry. -/
theorem firstLine_buzzLines {s : State} (h : ListOrdered s.clt.entries) :
    firstLine (buzzLines s) = some (deskPhaseBuzz s) := by
  simp only [buzzLines, firstLine_cons, ownIs_eq _ h, noOwnEntry_eq, deskPhaseBuzz, deskPhaseOpen]
  cases hown : ownEntry s with
  | none => simp [deskPhaseNoEntry, hown, lockedNow, locked, apply_ite some]
  | some e =>
    cases hst : e.status with
    | answering => cases s.rng.phase <;> simp [hst, deskPhaseNoEntry, hown, lockedNow, locked, apply_ite some]
    | waiting | spent | won | voided => simp [hst, apply_ite some]

theorem revealedKey_eq (r : Rng) : revealedKey r = [some 1, some 2, some 3, some 4].contains r.correctKey := by
  unfold revealedKey
  cases r.correctKey with
  | none => rfl
  | some k =>
    rw [Bool.eq_iff_iff]
    simp
    omega

/-- The first line of R181 that holds is the desk phase of a CHOICE round. -/
theorem firstLine_choiceLines (s : State) : firstLine (choiceLines s) = some (deskPhaseChoice s) := by
  simp only [choiceLines, firstLine_cons, deskPhaseChoice, ← revealedKey_eq]
  by_cases hended : s.rng.phase = .ended
  · simp [hended, apply_ite some]
  · simp [hended, apply_ite some, lockedNow, locked, keyShown, shownKey]

/-- JUMPED is shown under the lock alone (R179 to R181). -/
theorem locked_of_noEntry {s : State} (h : deskPhaseNoEntry s = .jumped) : locked s = true := by
  unfold deskPhaseNoEntry at h
  split_ifs at h
  assumption

theorem locked_of_buzz {s : State} (h : deskPhaseBuzz s = .jumped) : locked s = true := by
  unfold deskPhaseBuzz deskPhaseOpen at h
  split at h
  · split at h <;> cases h
  · split at h
    · exact locked_of_noEntry h
    · split at h
      · split at h
        · cases h
        · cases h
        · exact locked_of_noEntry h
      all_goals cases h

theorem locked_of_choice {s : State} (h : deskPhaseChoice s = .jumped) : locked s = true := by
  unfold deskPhaseChoice at h
  split_ifs at h with _ _ hlock
  exact hlock.2

theorem locked_of_deskPhase {s : State} (h : deskPhase s = .jumped) : locked s = true := by
  unfold deskPhase deskPhaseJumped at h
  split at h
  · cases h
  · split_ifs at h with _ hlock
    · exact hlock
    · split at h <;> cases h
  · split at h
    · exact locked_of_buzz h
    · exact locked_of_choice h

/-! ### Figures on the display (R177, R182, R183) -/

/-- A place is blank where the number does not reach it, but for the kept ones (R177). -/
theorem digitAt_eq (n place kept : Nat) :
    digitAt n place kept = if n < 10 ^ place ∧ kept < place then .blank else .digit (n / 10 ^ place % 10) := by
  simp [digitAt, Nat.div_eq_zero_iff]

theorem numberContent_shows (n : Nat) : ShowsNumber n false false (numberContent n 0) := by
  simp [ShowsNumber, numberContent, digitAt_eq]

theorem idleFigure_shows (s : State) : ShowsIdleFigure s (idleFigure s) := by
  unfold ShowsIdleFigure idleFigure
  dsimp only
  split
  case isTrue hdark =>
    rw [if_pos (by simpa [slowLit, and_assoc] using hdark)]
    rfl
  case isFalse hlit =>
    rw [if_neg (by simpa [slowLit, and_assoc] using hlit)]
    cases s.suu.identity.idleDisplay with
    | total => simp [totalContent, ShowsNumber, numberContent, digitAt_eq]
    | rank =>
      simp only [rankContent]
      split
      · rfl
      · exact numberContent_shows _

/-- What a desk phase puts on the display is its line of R182; a desk that shows JUMPED is locked. -/
theorem deskContent_shows (s : State) (d : DeskPhase) (h : d = .jumped → locked s = true) :
    ShowsDeskPhase s (deskContent s d) d := by
  cases d with
  | jumped =>
    have hlock := h rfl
    simp only [locked, Bool.and_eq_true, decide_eq_true_eq] at hlock
    refine ⟨jumpHundredths s, ?_, ?_, ?_⟩
    · unfold jumpHundredths; omega
    · unfold jumpHundredths; omega
    · simp [deskContent, hundredthsContent, numberContent, digitAt_eq]
  | queued n => exact numberContent_shows n
  | answering =>
    refine ⟨answerSeconds s, ?_, ?_, numberContent_shows _⟩ <;> unfold answerSeconds <;> omega
  | timeUp => exact numberContent_shows 0
  | chosen k =>
    intro letter hletter hk
    obtain ⟨j, rfl⟩ : ∃ j, k = j + 1 := ⟨k - 1, by omega⟩
    match j with
    | 0 | 1 | 2 | 3 => cases hletter; rfl
    | j + 4 => simp at hletter
  | idle | reading | armed | pendingClaim | spent | won | choosing | closed | revealed => exact idleFigure_shows s

theorem deskLamps_eq (s : State) (d : DeskPhase) : deskLamps s d = lampLine s d := by
  cases d with
  | revealed =>
    simp only [deskLamps, lampLine]
    by_cases hright : some (s.cht.team s.suu.identity.team).key = s.rng.correctKey
    · simp [← hright]
    · simp [hright, Ne.symm hright, apply_ite (PhaseLamps.mk .off .off)]
  | _ => rfl

/-- A panel that shows this desk phase (R182). -/
def PanelShows (s : State) (d : DeskPhase) : Prop := lampsOf s = lampLine s d ∧ ShowsDeskPhase s (contentOf s) d

/-- The display of a station at work, by its role (R178). -/
theorem contentOf_atWork {s : State} (hw : s.suu.startUp = .joining ∨ s.suu.startUp = .joined) :
    (s.suu.identity.role = .team → contentOf s = deskContent s (deskPhase s)) ∧
      (s.suu.identity.role = .console → contentOf s = consoleContent s.rng) ∧
      (s.suu.identity.role = .wall → contentOf s = wallContent s.rng) := by
  unfold contentOf
  refine ⟨fun hr => ?_, fun hr => ?_, fun hr => ?_⟩ <;> rcases hw with hw | hw <;> rw [hw, hr]

/-- Anywhere but at a TEAM station at work the three lamps are dark (R178). -/
theorem lampsOf_elsewhere {s : State} (h : s.suu.startUp.atWork = true → s.suu.identity.role ≠ .team) :
    lampsOf s = ⟨.off, .off, .off⟩ := if_neg fun ⟨hw, hr⟩ => h hw hr

/-- At a TEAM station at work the panel shows the desk phase (R178, R182). -/
theorem panelShows_deskPhase {s : State} {d : DeskPhase} (hw : s.suu.startUp = .joining ∨ s.suu.startUp = .joined)
    (hr : s.suu.identity.role = .team) (hd : deskPhase s = d) : PanelShows s d := by
  subst hd
  obtain ⟨hcontent, -, -⟩ := contentOf_atWork hw
  refine ⟨?_, hcontent hr ▸ deskContent_shows s _ locked_of_deskPhase⟩
  rw [← deskLamps_eq]
  exact if_pos ⟨by simpa [atWork_eq] using hw, hr⟩

/-- From LIVE on the format alone decides the table (R179). -/
theorem deskPhase_fromLive {s : State} (hu : s.rng.phase ≠ .unsynced) (hr : s.rng.phase ≠ .reading) :
    (s.rng.format = .buzz → deskPhase s = deskPhaseBuzz s) ∧
      (s.rng.format = .choice → deskPhase s = deskPhaseChoice s) := by
  unfold deskPhase
  split
  · contradiction
  · contradiction
  · exact ⟨fun hf => by rw [hf], fun hf => by rw [hf]⟩

/-- READING: a jumped desk shows its lock, and once that is over what LIVE shows (R179; log 8). -/
theorem deskPhase_reading {s : State} (hr : s.rng.phase = .reading) :
    (s.icu.record.jumped = false → deskPhase s = .reading) ∧
      (s.icu.record.jumped = true →
        (s.rck.count < s.icu.record.jumpLockEnd → deskPhase s = .jumped) ∧
        (s.icu.record.jumpLockEnd ≤ s.rck.count →
          deskPhase s = if s.rng.format = .buzz then .armed else .choosing)) := by
  unfold deskPhase deskPhaseJumped locked
  rw [hr]
  refine ⟨fun hj => by simp [hj], fun hj => ⟨fun hlock => by simp [hj, hlock], fun hover => ?_⟩⟩
  cases s.rng.format <;> simp [hj, Nat.not_lt.mpr hover]

/-- The phases of a round and their codes (R185). -/
theorem phaseCode_inRound :
    ∀ pk ∈ ([(.reading, 1), (.live, 2), (.turn, 3), (.held, 4), (.closing, 5), (.ended, 6)] : List (Phase × Nat)),
      pk.1 ≠ .unsynced ∧ pk.2 = phaseCode pk.1 := by decide

/-- The console's display: three dashes, or the round's number, before the code of the phase (R185). -/
theorem consoleContent_shows (r : Rng) :
    (r.phase = .unsynced → consoleContent r = ⟨.dash, .dash, .dash, .digit 0, false, false⟩) ∧
      (r.phase ≠ .unsynced →
        consoleContent r =
          { pos1 := if r.round < 100 then .blank else .digit (r.round / 100 % 10)
            pos2 := if r.round < 10 then .blank else .digit (r.round / 10 % 10)
            pos3 := .digit (r.round % 10), pos4 := .digit (phaseCode r.phase), sign := false, point := false }) := by
  unfold consoleContent
  exact ⟨fun h => by simp [h, phaseCode], fun h => by simp [h, digitAt_eq]⟩

/-- The wall's display: three dashes, or the round's number (R186). -/
theorem wallContent_shows (r : Rng) :
    (r.phase = .unsynced → wallContent r = ⟨.blank, .dash, .dash, .dash, false, false⟩) ∧
      (r.phase ≠ .unsynced →
        wallContent r =
          { pos1 := .blank, pos2 := if r.round < 100 then .blank else .digit (r.round / 100 % 10)
            pos3 := if r.round < 10 then .blank else .digit (r.round / 10 % 10)
            pos4 := .digit (r.round % 10), sign := false, point := false }) := by
  unfold wallContent
  exact ⟨fun h => if_pos h, fun h => by simp [h, numberContent, digitAt_eq]⟩

/-- The FAULT lamp by the first condition that holds (R184). -/
theorem faultPattern_shows (s : State) :
    (s.suu.startUp = .configFault ∨ s.suu.muted = true ∨ s.lcu.tx = .halted → faultPattern s = .on) ∧
      (s.suu.startUp ≠ .configFault → s.suu.muted = false → s.lcu.tx ≠ .halted →
        (s.pnl.flash.on = true → faultPattern s = .fast) ∧
        (s.pnl.flash.on = false → s.lcu.tx = .recovering → faultPattern s = .slow) ∧
        (s.pnl.flash.on = false → s.lcu.tx ≠ .recovering → faultPattern s = .off)) := by
  refine ⟨fun h => if_pos h, fun hstart hmuted hhalted => ?_⟩
  have hquiet : faultPattern s = if s.pnl.flash.on then .fast else if s.lcu.tx = .recovering then .slow else .off :=
    if_neg (by simp [hstart, hmuted, hhalted])
  rw [hquiet]
  exact ⟨fun h => by simp [h], fun h hx => by simp [h, hx], fun h hx => by simp [h, hx]⟩

/-- The lamp outputs by pattern and half-period of the blink base (R176; log 18). -/
theorem pinsOf_lit (blink : Nat) (l : PhaseLamps) (f : Pattern) :
    pinsOf blink l f = ⟨litBy blink l.turn, litBy blink l.wait, litBy blink l.lock, litBy blink f⟩ ∧
      litBy blink .off = false ∧ litBy blink .on = true ∧ (litBy blink .slow = true ↔ blink < 4) ∧
      (litBy blink .fast = true ↔ blink % 2 = 0) :=
  ⟨rfl, rfl, rfl, by simp [litBy, slowLit], by simp [litBy, fastLit]⟩

/-- Settles O53: station by station, a TEAM station's by its desk phase, which is the first line that holds. -/
theorem panelTables : Obligations.PanelTables := by
  intro s
  dsimp only
  obtain ⟨hfaultOn, hfaultElse⟩ := faultPattern_shows s
  refine ⟨fun h => ⟨lampsOf_elsewhere (by simp [h, StartUp.atWork]), by rw [contentOf, h]; rfl⟩,
    fun h => ⟨lampsOf_elsewhere (by simp [h, StartUp.atWork]), by rw [contentOf, h]; rfl⟩,
    fun hw hr => ⟨lampsOf_elsewhere (by simp [hr]), ?_⟩, fun hw hr => ⟨lampsOf_elsewhere (by simp [hr]), ?_⟩,
    fun hw hr => ?_, hfaultOn, hfaultElse, pinsOf_lit⟩
  · obtain ⟨-, hcontent, -⟩ := contentOf_atWork hw
    obtain ⟨hunsynced, hround⟩ := consoleContent_shows s.rng
    rw [hcontent hr]
    refine ⟨hunsynced, fun pk hpk hphase => ?_⟩
    obtain ⟨hsynced, hcode⟩ := phaseCode_inRound pk hpk
    rw [hround (hphase ▸ hsynced), hcode, hphase]
  · obtain ⟨-, -, hcontent⟩ := contentOf_atWork hw
    rw [hcontent hr]
    exact wallContent_shows s.rng
  · have shows {d : DeskPhase} (hd : deskPhase s = d) : PanelShows s d := panelShows_deskPhase hw hr hd
    refine ⟨fun hu => shows (by rw [deskPhase, hu]), fun hread hj => ?_, fun hread hj => ?_,
      fun hf hu hread hlist => ?_, fun hf hu hread => ?_⟩
    · obtain ⟨hreading, -⟩ := deskPhase_reading hread
      exact shows (hreading hj)
    · obtain ⟨-, hjumped⟩ := deskPhase_reading hread
      obtain ⟨hlocked, hover⟩ := hjumped hj
      exact ⟨fun h => shows (hlocked h), fun h => shows (hover h)⟩
    · obtain ⟨hbuzz, -⟩ := deskPhase_fromLive hu hread
      exact ⟨_, firstLine_buzzLines hlist, shows (hbuzz hf)⟩
    · obtain ⟨-, hchoice⟩ := deskPhase_fromLive hu hread
      exact ⟨_, firstLine_choiceLines s, shows (hchoice hf)⟩

end Sys2Proof.Machine

namespace Sys2Proof.Machine

open Sys2Proof.Safety

/-! ### The panel's timers and the roll window (R176, R177, R179, R184, R193) -/

/-- The frame of a step that changes the panel alone. -/
theorem pnl_stepFrame (s : State) (p : Pnl) : StepFrame [.pnl] 0 s (refresh (s.withPnl p)) :=
  stepFrame_of _ 0 s _ (fun b hb h1 h2 => by cases b <;> simp_all [Block.same]) (by simp) (fun _ => rfl) (by simp) rfl

/-- A panel on which neither the content last sent nor the update changed: the display follows its content (R177). -/
theorem pnl_displayFollows (s : State) (p : Pnl) (hsent : p.lastSent = s.pnl.lastSent) (hupdate : p.update = s.pnl.update) :
    DisplayFollows s (refresh (s.withPnl p)) := by
  have hd := refresh_display (s.withPnl p)
  unfold DisplayFollows at hd ⊢
  rwa [State.withPnl_pnl, hsent, hupdate] at hd

/-- With no update running the content is sent at once, unless it is the one last sent (R177). -/
theorem sendContent_free (c : Content4) (p : Pnl) (h : p.update = .off) :
    (sendContent c p).lastSent = c ∧ (sendContent c p).update = if c = p.lastSent then .off else .running 200 := by
  unfold sendContent
  by_cases hc : c = p.lastSent
  · simp [hc, h]
  · simp [hc, h, Timer.on, Config.displayUpdateUs]

/-- The display after a refresh with no update running (R177). -/
theorem refresh_afterUpdate (u : State) (h : u.pnl.update = .off) :
    (refresh u).pnl.lastSent = (refresh u).pnl.content ∧
      (refresh u).pnl.update = if (refresh u).pnl.content = u.pnl.lastSent then .off else .running 200 := by
  rw [refresh_content]
  exact sendContent_free (contentOf u) _ h

theorem exec_flashEnd {s : State} (h : s.pnl.flash.on = true) :
    exec .droppedFrameFlashEnd s = .next (refresh (s.withPnl { s.pnl with flash := .off })) :=
  when_occurs (fun s : State => s.withPnl { s.pnl with flash := .off }) s h

theorem exec_updateEnd {s : State} (h : s.pnl.update.on = true) :
    exec .displayUpdateEnd s = .next (refresh (s.withPnl { s.pnl with update := .off })) :=
  when_occurs (fun s : State => s.withPnl { s.pnl with update := .off }) s h

/-- The console function after the end of a roll: idle, a report still held kept (R193). -/
theorem endRoll_cnf (id window : Nat) (s : State) (hid : s.cnf.currentRoll = some id)
    (hwindow : s.cnf.window = some window) :
    (endRoll s).cnf =
      { s.cnf with
        rollState := .idle, currentRoll := none, window := none, windowTimer := .off, replySet := []
        report :=
          if s.cnf.report.valid then s.cnf.report
          else { valid := true, id := id, window := window, desks := s.cnf.replySet, count := s.cnf.replySet.length } } := by
  simp [endRoll, rollReport, hid, hwindow]

/-- The frame of the end of a roll: ROLL_DONE is raised whether or not a report was still held (R193). -/
theorem endRoll_stepFrame (s : State) : StepFrame [.cnf] Event.rollDone.flag s (refresh (endRoll s)) :=
  stepFrame_of _ _ s _ (fun b hb h1 h2 => by cases b <;> simp_all [Block.same, endRoll]) (fun _ => rfl) (fun _ => rfl)
    rfl rfl

/-- Settles O54, row by row: the panel's rows write the panel alone, the roll's end the console function. -/
theorem panelAndRollTimers : Obligations.PanelAndRollTimers := by
  intro s
  refine ⟨fun hjumped hover => ?_, fun hflash => ?_, ?_, fun hupdate => ?_, fun id window hpoll htimer hid hwindow => ?_⟩
  · refine ⟨_, when_occurs id s (by simp [hjumped, hover]), ?_⟩
    exact stepFrame_of _ 0 s s (fun b _ h1 h2 => by cases b <;> simp_all [Block.same]) (fun _ => rfl)
      (fun _ => rfl) (by simp) rfl
  · exact ⟨_, exec_flashEnd hflash, by simp, by simp, pnl_displayFollows s _ rfl rfl, pnl_stepFrame s _⟩
  · exact ⟨_, rfl, by simp [blinkOn], by simp [blinkOn], pnl_displayFollows s _ rfl rfl, pnl_stepFrame s _⟩
  · obtain ⟨hsent, hnext⟩ := refresh_afterUpdate (s.withPnl { s.pnl with update := .off }) rfl
    exact ⟨_, exec_updateEnd hupdate, by simp, by simp, hsent, hnext, pnl_stepFrame s _⟩
  · refine ⟨_, when_occurs endRoll s (by simp [hpoll, htimer]), ?_, endRoll_stepFrame s⟩
    rw [refresh_cnf]
    exact endRoll_cnf id window s hid hwindow

end Sys2Proof.Machine

namespace Sys2Proof.Machine

open Sys2Proof.Safety

/-! ### Command records at the port (R195, R204) -/

section
variable {setup role1 role0 : Bool} {code : Byte} {args bytes : List Byte} {c : Instr}

/-- A record with the arguments its code asks for spells their command, whatever bytes follow (R195). -/
theorem decodeTransfer_of_args (hcount : argumentCount code.toNat = some args.length)
    (hspell : decodeArgs setup role1 role0 code.toNat args = some c) (extra : List Byte) :
    decodeTransfer setup role1 role0 (code :: args ++ extra) = c := by
  simp [decodeTransfer, hcount, hspell]

/-- An unknown code, or too few arguments, spell UNKNOWN_COMMAND (R195). -/
theorem decodeTransfer_unknown (h : isUnknown code args = true) :
    decodeTransfer setup role1 role0 (code :: args) = .unknownCommand code args := by
  unfold isUnknown at h
  cases hcount : argumentCount code.toNat with
  | none => simp [decodeTransfer, hcount]
  | some n =>
    have hfew : args.length < n := by simpa [hcount] using h
    simp [decodeTransfer, hcount, hfew]

/-- The record of a known command is a code and the arguments it asks for, and they spell the command with the pins that the
transfer reads (R204). -/
theorem encodeCommand_args (hknown : ∀ code args, c ≠ .unknownCommand code args) (h : encodeCommand c = some bytes)
    (hpin : ∀ row value pin, c = .storeWrite row value pin → pin = setup)
    (hstraps : ∀ a b, c = .restart a b → a = role1 ∧ b = role0) :
    ∃ code args, bytes = code :: args ∧ argumentCount code.toNat = some args.length ∧
      decodeArgs setup role1 role0 code.toNat args = some c := by
  cases c with
  | unknownCommand code args => exact absurd rfl (hknown code args)
  | storeWrite row value pin =>
    obtain rfl := hpin row value pin rfl
    cases h
    exact ⟨_, _, rfl, rfl, congrArg (fun v => some (Instr.storeWrite row v pin)) (half_bytes value)⟩
  | restart a b =>
    obtain ⟨rfl, rfl⟩ := hstraps a b rfl
    cases h
    exact ⟨_, _, rfl, rfl, rfl⟩
  | openRound block =>
    cases h
    exact ⟨_, _, rfl, rfl, congrArg (Option.map Instr.openRound) (parseBlock_blockBytes block)⟩
  | clearEvents flags =>
    cases h
    exact ⟨_, _, rfl, rfl, congrArg (some ∘ Instr.clearEvents) (half_bytes flags)⟩
  | setEventMask flags =>
    cases h
    exact ⟨_, _, rfl, rfl, congrArg (some ∘ Instr.setEventMask) (half_bytes flags)⟩
  | setTotal team value =>
    cases h
    exact ⟨_, _, rfl, rfl, congrArg (some ∘ Instr.setTotal team) (half_bytes value)⟩
  | adjust team delta =>
    cases h
    exact ⟨_, _, rfl, rfl, congrArg (some ∘ Instr.adjust team) (half_bytes delta)⟩
  | nop | status | readScores | readClaims | readChoices | readPresence | readRollReport | readFaults | clearFaults
  | readEvents | storeRead | closeRound | verdictCommand | revealCommand | sendTally | rollCall | clearRollReport =>
    cases h
    exact ⟨_, _, rfl, rfl, rfl⟩
  | _ => cases h

/-- The record of a known command, whatever bytes follow it, spells the command (R195, R204). -/
theorem decodeTransfer_encodeCommand (hknown : ∀ code args, c ≠ .unknownCommand code args)
    (h : encodeCommand c = some bytes) (hpin : ∀ row value pin, c = .storeWrite row value pin → pin = setup)
    (hstraps : ∀ a b, c = .restart a b → a = role1 ∧ b = role0) (extra : List Byte) :
    decodeTransfer setup role1 role0 (bytes ++ extra) = c := by
  obtain ⟨code, args, rfl, hcount, hspell⟩ := encodeCommand_args hknown h hpin hstraps
  exact decodeTransfer_of_args hcount hspell extra

end

/-- The whole bytes of a transfer are those shifted in; fewer than eight bits after them are discarded (R195). -/
theorem shiftedBytes_flatMap (bytes : List Byte) (part : List Bool) (h : part.length < 8) :
    shiftedBytes (bytes.flatMap bitsOf ++ part) = bytes := by
  have hlength : (bytes.flatMap bitsOf).length = bytes.length * 8 := by
    simp [List.length_flatMap]
  have hwhole : (bytes.flatMap bitsOf ++ part).length / 8 = bytes.length := by
    rw [List.length_append, hlength]
    omega
  rw [shiftedBytes, hwhole, bytesOfBits_flatMap]

/-- Settles O12: a record of an unknown command by its check, that of any other by its code and arguments. -/
theorem commandRoundTrip : Obligations.CommandRoundTrip := by
  refine ⟨fun c bytes setup role1 role0 hwell hbytes hpin hstraps => ⟨?_, fun hknown extra => ?_⟩, fun _ _ _ => rfl,
    fun setup role1 role0 bytes part hpart => ?_⟩
  · by_cases hknown : ∀ code args, c ≠ .unknownCommand code args
    · simpa using decodeTransfer_encodeCommand hknown hbytes hpin hstraps []
    · push Not at hknown
      obtain ⟨code, args, rfl⟩ := hknown
      cases hbytes
      exact decodeTransfer_unknown hwell
  · exact decodeTransfer_encodeCommand hknown hbytes hpin hstraps extra
  · rw [decodeShifted, shiftedBytes_flatMap bytes part hpart]

end Sys2Proof.Machine

namespace Sys2Proof.Machine

open Sys2Proof.Safety

/-! ### Transfers (R195, R196) -/

/-- The frame of a step that changes the port alone, its flags kept. -/
theorem cmp_stepFrame (s : State) (x : Cmp) (h : x.flags = s.cmp.flags) : StepFrame [.cmp] 0 s (refresh (s.withCmp x)) :=
  stepFrame_of _ 0 s _ (fun b hb h1 h2 => by cases b <;> simp_all [Block.same]) (fun _ => rfl) (by simp) (by simp [h]) rfl

/-- Bit k of a byte, its most significant bit first (R195). -/
theorem bitsOf_getElem? (b : Byte) {k : Nat} (hk : k < 8) : (bitsOf b)[k]? = some (b.getLsbD (7 - k)) := by
  rw [bitsOf, List.getElem?_map, List.getElem?_range hk, Option.map_some, BitVec.getMsbD, decide_eq_true hk,
    Bool.true_and]

section
variable {x : Cmp} {bytes : List Byte}

/-- SDO carries the presented bytes in order, eight bits to each (R195). -/
theorem sdoBit_byte (hx : x.sdo = some (bytes.flatMap bitsOf)) {n k : Nat} {b : Byte} (hb : bytes[n]? = some b)
    (hk : k < 8) : x.sdoBit (8 * n + k) = some (b.getLsbD (7 - k)) := by
  have hwidth : ∀ bits ∈ bytes.map bitsOf, bits.length = 8 := fun bits hbits => by
    obtain ⟨b, -, rfl⟩ := List.mem_map.mp hbits
    exact bitsOf_length b
  have hrecord : bitsOf b <+: (bytes.flatMap bitsOf).drop (0 + 8 * n) :=
    record_of_table [] _ hwidth (by rw [List.getElem?_map, hb]; rfl)
  have hbit := getElem?_of_record hrecord (j := k) (by simpa using hk)
  rw [Nat.zero_add, bitsOf_getElem? b hk] at hbit
  rw [Cmp.sdoBit, hx, Option.map_some, List.getD_eq_getElem?_getD, hbit, Option.getD_some]

/-- After the last presented bit SDO carries zeros (R195). -/
theorem sdoBit_after (hx : x.sdo = some (bytes.flatMap bitsOf)) {n : Nat} (hn : 8 * bytes.length ≤ n) :
    x.sdoBit n = some false := by
  have hlength : (bytes.flatMap bitsOf).length ≤ n := by
    simpa [List.length_flatMap, Nat.mul_comm] using hn
  rw [Cmp.sdoBit, hx, Option.map_some, List.getD_eq_default _ _ hlength]

end

theorem exec_transferStart {s : State} (h : s.cmp.transfer = .waitSelect) :
    exec .transferStart s =
      .next (refresh (s.withCmp
        { s.cmp with transfer := .shifting, csN := false, sdo := some (s.cmp.heldReply.flatMap bitsOf) })) :=
  when_occurs (fun s : State => s.withCmp
    { s.cmp with transfer := .shifting, csN := false, sdo := some (s.cmp.heldReply.flatMap bitsOf) }) s (by simp [h])

theorem exec_transferEndNoCommand {s : State} (h : s.cmp.transfer ≠ .waitSelect) :
    exec .transferEndNoCommand s = .next (refresh (s.withCmp s.cmp.release)) :=
  when_occurs (fun s : State => s.withCmp s.cmp.release) s (by simpa using h)

theorem exec_unknownCommand {s : State} {code : Byte} {args : List Byte} (hs : s.cmp.transfer = .shifting)
    (h : isUnknown code args = true) :
    exec (.unknownCommand code args) s = .next (refresh (answer code .unknown [] s)) :=
  when_occurs (answer code .unknown []) s (by simp [shifting, hs, h])

theorem exec_nop {s : State} (h : s.cmp.transfer = .shifting) :
    exec .nop s = .next (refresh (s.withCmp { s.cmp.release with count := s.cmp.count + 1 })) :=
  command_shifting (fun s : State => s.withCmp { s.cmp.release with count := s.cmp.count + 1 }) s h

/-- Settles O55, row by row: all but UNKNOWN_COMMAND, which answers, write the port alone. -/
theorem transfers : Obligations.Transfers := by
  intro s
  refine ⟨fun hwait => ?_, fun hbusy => ?_, fun hshift => ⟨fun code args hunknown => ?_, ?_⟩⟩
  · exact ⟨_, exec_transferStart hwait, rfl, rfl, rfl, fun n b hb k hk => sdoBit_byte rfl hb hk,
      fun n hn => sdoBit_after rfl hn, rfl, rfl, rfl, cmp_stepFrame s _ rfl⟩
  · exact ⟨_, exec_transferEndNoCommand hbusy, rfl, rfl, rfl, rfl, rfl, rfl, cmp_stepFrame s _ rfl⟩
  · exact ⟨_, exec_unknownCommand hshift hunknown, answer_onlyReplied _ _ _ s⟩
  · exact ⟨_, exec_nop hshift, rfl, rfl, rfl, rfl, rfl, rfl, cmp_stepFrame s _ rfl⟩

end Sys2Proof.Machine

namespace Sys2Proof.Machine

open Sys2Proof.Safety

/-! ### The packed bytes of STATUS (R198, R204) -/

theorem toNat_byteOf {n : Nat} (h : n < 256) : (byteOf n).toNat = n := by
  rw [byteOf, BitVec.toNat_ofNat, Nat.mod_eq_of_lt h]

theorem getLsbD_bitAt (m k : Nat) (b : Bool) : (bitAt m b).getLsbD k = (b && (m == k && decide (k < 8))) := by
  cases b
  · simp [bitAt]
  · rw [bitAt, if_pos rfl, BitVec.getLsbD_ofNat, Nat.testBit_two_pow]
    simp [Bool.and_comm, beq_eq_decide]

theorem toNat_half (a b : Byte) : (half a b).toNat = 256 * a.toNat + b.toNat := by
  rw [half, BitVec.toNat_append, ← Nat.shiftLeft_add_eq_or_of_lt b.isLt, Nat.shiftLeft_eq, Nat.mul_comm]

/-- The free bits above the low ones of a byte leave those. -/
theorem low_withSpare (named spare : Byte) (place n len : Nat) (h : spare.toNat % 2 ^ len = 0) :
    (withSpare named spare place n).toNat % 2 ^ len = named.toNat % 2 ^ len := by
  simpa using field_withSpare named spare place n 0 len (by simpa using h)

/-- The pass-hold byte, in its row's bits (R4; log 30). -/
theorem passHoldByte_spell (place n hold : Nat) (h : hold < 32) :
    (withSpare (byteOf hold) 0xE0 place n).toNat % 32 = hold := by
  have hlow := low_withSpare (byteOf hold) 0xE0 place n 5 (by decide)
  rw [toNat_byteOf (by omega)] at hlow
  exact hlow.trans (Nat.mod_eq_of_lt h)

/-- The filter byte holds the code of each of the four filter times (R4; log 30). -/
theorem filterByte_spell (place n ms : Nat) (h : ms ∈ [1, 2, 4, 8]) :
    2 ^ ((withSpare (byteOf (filterCode ms)) 0xFC place n).toNat % 4) = ms := by
  have hcode : ∀ x ∈ [1, 2, 4, 8], 2 ^ ((byteOf (filterCode x)).toNat % 4) = x := by decide
  have hlow := low_withSpare (byteOf (filterCode ms)) 0xFC place n 2 (by decide)
  exact (congrArg (2 ^ ·) hlow).trans (hcode ms h)

/-- The display options, in their row's bits (R5; log 30). -/
theorem displayByte_spell (place n : Nat) (display : IdleDisplay) (blink : Bool) :
    let b := withSpare (bitAt 0 (display == .rank) ||| bitAt 1 blink) 0xFC place n
    (b.getLsbD 0 = true ↔ display = .rank) ∧ b.getLsbD 1 = blink := by
  refine ⟨?_, ?_⟩
  all_goals
    rw [getLsbD_withSpare _ _ _ _ _ (by decide), BitVec.getLsbD_or, getLsbD_bitAt, getLsbD_bitAt]
    simp

/-- The byte of the markers (R198). -/
theorem markersByte_spell (place n : Nat) (s : State) :
    let b := withSpare
      (bitAt 0 s.suu.muted ||| bitAt 1 s.sto.busy ||| bitAt 2 s.lcu.faultMemory.on ||| bitAt 3 s.cnf.verdictPending.isSome |||
        bitAt 4 (s.cnf.verdictKind == .automatic) ||| bitAt 5 (s.cnf.rollState == .polling)) 0xC0 place n
    b.getLsbD 0 = s.suu.muted ∧ b.getLsbD 1 = s.sto.busy ∧ b.getLsbD 2 = s.lcu.faultMemory.on ∧
      b.getLsbD 3 = s.cnf.verdictPending.isSome ∧ (b.getLsbD 4 = true ↔ s.cnf.verdictKind = .automatic) ∧
      (b.getLsbD 5 = true ↔ s.cnf.rollState = .polling) := by
  refine ⟨?_, ?_, ?_, ?_, ?_, ?_⟩
  all_goals
    rw [getLsbD_withSpare _ _ _ _ _ (by decide)]
    simp only [BitVec.getLsbD_or, getLsbD_bitAt]
    simp

/-- The byte of a place: bit 7 says whether it is occupied, the others are named for an occupied one (R198). -/
theorem placeByte_spell (p : Place) (s : State) (h : ∀ f ∈ s.lcu.queue, f.attempts < 8) :
    (frameAt p s.lcu.queue = none → (placeByte s p).getLsbD 7 = false) ∧
      ∀ f : QFrame, frameAt p s.lcu.queue = some f → (placeByte s p).getLsbD 7 = true ∧
        (placeByte s p).getLsbD 6 = f.inAttempt ∧ (placeByte s p).getLsbD 5 = f.withdrawn ∧
        (placeByte s p).toNat % 8 = f.attempts := by
  refine ⟨fun hnone => ?_, fun f hsome => ?_⟩
  · simp only [placeByte, hnone]
    exact getLsbD_withSpare 0 0x7F _ _ 7 (by decide)
  · have hnamed : ∀ (u v : Bool) (a : Fin 8), let x := bitAt 7 true ||| bitAt 6 u ||| bitAt 5 v ||| byteOf a
        x.getLsbD 7 = true ∧ x.getLsbD 6 = u ∧ x.getLsbD 5 = v ∧ x.toNat % 8 = a := by decide
    obtain ⟨hmem, -⟩ := frameAt_some hsome
    obtain ⟨h7, h6, h5, hcount⟩ := hnamed f.inAttempt f.withdrawn ⟨f.attempts, h f hmem⟩
    simp only [placeByte, hsome]
    exact ⟨(getLsbD_withSpare _ _ _ _ 7 (by decide)).trans h7, (getLsbD_withSpare _ _ _ _ 6 (by decide)).trans h6,
      (getLsbD_withSpare _ _ _ _ 5 (by decide)).trans h5, (low_withSpare _ 0x18 _ _ 3 (by decide)).trans hcount⟩

/-- The byte of the phase (R198). -/
theorem phaseByte_spell (place n : Nat) (phase : Phase) (saturated closed : Bool) :
    let b := withSpare (byteOf (phaseCode phase) ||| bitAt 6 saturated ||| bitAt 7 closed) 0x38 place n
    b.toNat % 8 = phaseCode phase ∧ b.getLsbD 6 = saturated ∧ b.getLsbD 7 = closed := by
  have hnamed : ∀ u v : Bool, let x := byteOf (phaseCode phase) ||| bitAt 6 u ||| bitAt 7 v
      x.toNat % 8 = phaseCode phase ∧ x.getLsbD 6 = u ∧ x.getLsbD 7 = v := by cases phase <;> decide
  obtain ⟨hphase, h6, h7⟩ := hnamed saturated closed
  exact ⟨(low_withSpare _ 0x38 _ _ 3 (by decide)).trans hphase, (getLsbD_withSpare _ _ _ _ 6 (by decide)).trans h6,
    (getLsbD_withSpare _ _ _ _ 7 (by decide)).trans h7⟩

/-- The two bytes of the answer clock, thirteen bits and the mark that it runs (R198). -/
theorem answerClockBytes_spell (place n clock : Nat) (running : Bool) (h : clock < 8192) :
    let a := withSpare (byteOf (clock / 256) ||| bitAt 7 running) 0x60 place n
    (half a (byteOf clock)).toNat % 8192 = clock ∧ a.getLsbD 7 = running := by
  intro a
  have hnamed : ∀ (high : Fin 32) (u : Bool), let x := byteOf high ||| bitAt 7 u
      x.toNat % 32 = high ∧ x.getLsbD 7 = u := by decide
  obtain ⟨hhigh, h7⟩ := hnamed ⟨clock / 256, by omega⟩ running
  have hbyte : a.toNat % 32 = clock / 256 := (low_withSpare _ 0x60 place n 5 (by decide)).trans hhigh
  have hlow : (byteOf clock).toNat = clock % 256 := by rw [byteOf, BitVec.toNat_ofNat]
  exact ⟨by rw [toNat_half, hlow]; omega, (getLsbD_withSpare _ _ _ _ 7 (by decide)).trans h7⟩

/-! ### STATUS (R198) -/

/-- The twelve bytes of identity and markers, with which STATUS begins (R204). -/
def statusHead (s : State) : List Byte := statusIdentity s ++ statusMarkers s

/-- The round number and the parameter block (R204). -/
def statusParameters (s : State) : List Byte := byteOf s.rng.round :: blockBytes (blockOfRound s.rng)

/-- The rest of the round context and the clock, with which STATUS ends (R204). -/
def statusProgress (s : State) : List Byte :=
  withSpare (byteOf (phaseCode s.rng.phase) ||| bitAt 6 s.rng.saturated ||| bitAt 7 s.rng.closed) 0x38 47 s.free ::
    (bytes3 (BitVec.ofNat 24 s.rng.closePoint) ++
      ([byteOf s.rng.turn, byteOf (s.rng.answering.getD 0),
        withSpare (byteOf (s.rng.answerClock / 256) ||| bitAt 7 s.rng.answerRunning) 0x60 53 s.free,
        byteOf s.rng.answerClock, keyByte s.rng.correctKey] ++
        (bytes3 (BitVec.ofNat 24 s.rck.count) ++ [flagByte s.rck.running])))

theorem statusBody_eq (s : State) :
    statusBody s = statusHead s ++ (statusTransmitter s ++ (statusParameters s ++ statusProgress s)) := by
  simp only [statusBody, statusHead, statusRound, statusParameters, statusProgress, List.append_assoc, List.cons_append,
    List.nil_append]

@[simp] theorem length_statusHead (s : State) : (statusHead s).length = 12 := rfl

@[simp] theorem length_statusTransmitter (s : State) : (statusTransmitter s).length = 15 := rfl

@[simp] theorem length_statusParameters (s : State) : (statusParameters s).length = 20 := rfl

@[simp] theorem length_statusProgress (s : State) : (statusProgress s).length = 13 := rfl

theorem length_statusBody (s : State) : (statusBody s).length = 60 := by simp [statusBody_eq]

/-- The four parts of STATUS, each at its place (R204). -/
theorem statusBody_parts (s : State) :
    statusHead s <+: (statusBody s).drop 0 ∧ statusTransmitter s <+: (statusBody s).drop 12 ∧
      statusParameters s <+: (statusBody s).drop 27 ∧ statusProgress s <+: (statusBody s).drop 47 := by
  have htransmitter : (statusBody s).drop 12 = statusTransmitter s ++ (statusParameters s ++ statusProgress s) := by
    rw [statusBody_eq, List.drop_left' (length_statusHead s)]
  have hparameters : (statusBody s).drop 27 = statusParameters s ++ statusProgress s := by
    rw [show 27 = 12 + 15 from rfl, ← List.drop_drop, htransmitter, List.drop_left' (length_statusTransmitter s)]
  have hprogress : (statusBody s).drop 47 = statusProgress s := by
    rw [show 47 = 27 + 20 from rfl, ← List.drop_drop, hparameters, List.drop_left' (length_statusParameters s)]
  exact ⟨⟨_, (statusBody_eq s).symm⟩, ⟨_, htransmitter.symm⟩, ⟨_, hparameters.symm⟩, ⟨[], by
    rw [hprogress, List.append_nil]⟩⟩

/-- The identity and its options in their row layouts (R198; log 30). -/
theorem statusBody_identity (s : State) (hhold : s.suu.identity.passHold < 32)
    (hfilter : s.suu.identity.filterMs ∈ [1, 2, 4, 8]) :
    let i := s.suu.identity
    (statusBody s).take 5 = [roleCode i.role, byteOf i.desk, byteOf i.team] ++ bytes2 i.tag ∧
      (∃ b : Byte, (statusBody s)[5]? = some b ∧ b.toNat % 32 = i.passHold) ∧
      (∃ b : Byte, (statusBody s)[6]? = some b ∧ 2 ^ (b.toNat % 4) = i.filterMs) ∧
      (∃ b : Byte, (statusBody s)[7]? = some b ∧ (b.getLsbD 0 = true ↔ i.idleDisplay = .rank) ∧
        b.getLsbD 1 = i.blink) ∧
      (statusBody s)[8]? = some (reasonCode i.reason) ∧ (statusBody s)[9]? = some (startUpCode s.suu.startUp) := by
  obtain ⟨hhead, -⟩ := statusBody_parts s
  refine ⟨take_drop_of_record hhead (j := 0) (k := 5) (by simp), ⟨_, getElem?_of_record hhead (j := 5) (by simp), ?_⟩,
    ⟨_, getElem?_of_record hhead (j := 6) (by simp), ?_⟩, ⟨_, getElem?_of_record hhead (j := 7) (by simp), ?_⟩,
    getElem?_of_record hhead (j := 8) (by simp), getElem?_of_record hhead (j := 9) (by simp)⟩
  · exact passHoldByte_spell _ _ _ hhold
  · exact filterByte_spell _ _ _ hfilter
  · exact displayByte_spell _ _ _ _

/-- The markers, with the turn of a verdict that is pending (R198). -/
theorem statusBody_markers (s : State) :
    (∃ b : Byte, (statusBody s)[10]? = some b ∧ b.getLsbD 0 = s.suu.muted ∧ b.getLsbD 1 = s.sto.busy ∧
      b.getLsbD 2 = s.lcu.faultMemory.on ∧ b.getLsbD 3 = s.cnf.verdictPending.isSome ∧
      (b.getLsbD 4 = true ↔ s.cnf.verdictKind = .automatic) ∧ (b.getLsbD 5 = true ↔ s.cnf.rollState = .polling)) ∧
      ∀ k : Nat, s.cnf.verdictPending = some k → (statusBody s)[11]? = some (byteOf k) := by
  obtain ⟨hhead, -⟩ := statusBody_parts s
  refine ⟨⟨_, getElem?_of_record hhead (j := 10) (by simp), markersByte_spell _ _ s⟩, fun k hk => ?_⟩
  have hturn : (statusMarkers s)[1]? = some (byteOf k) := by simp [statusMarkers, hk]
  exact (getElem?_of_record hhead (j := 11) (by simp)).trans hturn

/-- The transmitter's state, then the fourteen places (R198). -/
theorem statusBody_transmitter (s : State) :
    (statusBody s)[12]? = some (txCode (some s.lcu.tx)) ∧
      ∀ (i : Nat) (p : Place), allPlaces[i]? = some p → (statusBody s)[13 + i]? = some (placeByte s p) := by
  obtain ⟨-, htransmitter, -⟩ := statusBody_parts s
  refine ⟨getElem?_of_record htransmitter (j := 0) (by simp), fun i p hp => ?_⟩
  obtain ⟨hi, -⟩ := List.getElem?_eq_some_iff.mp hp
  have hitem := getElem?_of_record htransmitter (j := i + 1) (Nat.succ_lt_succ hi)
  rw [show 12 + (i + 1) = 13 + i by omega] at hitem
  rw [hitem, statusTransmitter, List.getElem?_cons_succ, List.getElem?_map, hp, Option.map_some]

/-- The round context, then the round clock (R198). -/
theorem statusBody_round (s : State) (hclock : s.rng.answerClock < 8192) :
    (statusBody s)[27]? = some (byteOf s.rng.round) ∧
      ((statusBody s).drop 28).take 19 = blockBytes (blockOfRound s.rng) ∧
      (∃ b : Byte, (statusBody s)[47]? = some b ∧ b.toNat % 8 = phaseCode s.rng.phase ∧
        b.getLsbD 6 = s.rng.saturated ∧ b.getLsbD 7 = s.rng.closed) ∧
      ((statusBody s).drop 48).take 5 =
        bytes3 (BitVec.ofNat 24 s.rng.closePoint) ++ [byteOf s.rng.turn, byteOf (s.rng.answering.getD 0)] ∧
      (∃ a b : Byte, (statusBody s)[53]? = some a ∧ (statusBody s)[54]? = some b ∧
        (half a b).toNat % 8192 = s.rng.answerClock ∧ a.getLsbD 7 = s.rng.answerRunning) ∧
      ((statusBody s).drop 55).take 4 = keyByte s.rng.correctKey :: bytes3 (BitVec.ofNat 24 s.rck.count) ∧
      (statusBody s)[59]? = some (if s.rck.running then 1 else 0) := by
  obtain ⟨-, -, hparameters, hprogress⟩ := statusBody_parts s
  exact ⟨getElem?_of_record hparameters (j := 0) (by simp),
    take_drop_of_record hparameters (j := 1) (k := 19) (by simp),
    ⟨_, getElem?_of_record hprogress (j := 0) (by simp), phaseByte_spell _ _ _ _ _⟩,
    take_drop_of_record hprogress (j := 1) (k := 5) (by simp),
    ⟨_, _, getElem?_of_record hprogress (j := 6) (by simp), getElem?_of_record hprogress (j := 7) (by simp),
      answerClockBytes_spell _ _ _ _ hclock⟩,
    take_drop_of_record hprogress (j := 8) (k := 4) (by simp), getElem?_of_record hprogress (j := 12) (by simp)⟩

/-- Settles O56: STATUS answers with its body, spelt out part by part. -/
theorem statusRead : Obligations.StatusRead := by
  intro s hs hqueue hbounds
  obtain ⟨-, hframes, -⟩ := hqueue
  obtain ⟨-, -, -, -, hclock, -, -, -, -, hfilter, -, hhold, -⟩ := hbounds
  have hcounts : ∀ f ∈ s.lcu.queue, f.attempts < 8 := fun f hf => by
    obtain ⟨-, -, hcount, -⟩ := hframes f hf
    exact hcount.trans (by decide)
  obtain ⟨t, ht, hreplied⟩ := command_answer 0x01 statusBody s hs
  obtain ⟨hmarkers, hturn⟩ := statusBody_markers s
  obtain ⟨htx, hplaces⟩ := statusBody_transmitter s
  obtain ⟨hround, hblock, hphase, hpoint, hanswer, hkey, hrunning⟩ := statusBody_round s (by omega)
  refine ⟨t, statusBody s, ht, hreplied, length_statusBody s, statusBody_identity s (by omega) hfilter, hmarkers, hturn, htx,
    fun i p hp => ⟨_, hplaces i p hp, placeByte_spell p s hcounts⟩, hround, hblock, hphase, hpoint, hanswer, ?_, hrunning⟩
  rw [hkey]
  cases s.rng.correctKey <;> rfl

end Sys2Proof.Machine

namespace Sys2Proof.Machine

/-! ### The queue of waiting commands, through start-up and line (R5, R10, R19 to R34, R44 to R48; log 5) -/

@[simp] theorem endLoading_pending (s : State) : (endLoading s).pending = s.pending := by
  unfold endLoading acceptIdentity
  dsimp only
  (repeat' split) <;> simp

@[simp] theorem endJoinWait_pending (s : State) : (endJoinWait s).pending = s.pending := by
  unfold endJoinWait
  dsimp only
  split <;> simp

@[simp] theorem mismatch_pending (cell : Nat) (r : CellReading) (s : State) : (mismatch cell r s).pending = s.pending := by
  unfold mismatch
  dsimp only
  split <;> simp

@[simp] theorem discard_pending (ack objection : CellReading) (s : State) :
    (discard ack objection s).pending = s.pending := by
  unfold discard
  split <;> simp

@[simp] theorem faultAtController_pending (s : State) : (faultAtController s).pending = s.pending := by
  unfold faultAtController doubleFault enterRecovering
  dsimp only
  (repeat' split) <;> simp

@[simp] theorem leaveRecovering_pending (s : State) : (leaveRecovering s).pending = s.pending := by
  unfold leaveRecovering
  dsimp only
  split <;> simp

/-! ### Through the round's timers and the desk inputs (R57 to R71, R80, R81, R85) -/

@[simp] theorem reachArm_pending (s : State) : (reachArm s).pending = s.pending :=
  (reachArm_keeps (p := .claim) s).pending

@[simp] theorem saturateClock_pending (s : State) : (saturateClock s).pending = s.pending := by
  unfold saturateClock
  dsimp only
  (repeat' split) <;> simp

@[simp] theorem answerExpiry_pending (s : State) : (answerExpiry s).pending = s.pending := by
  unfold answerExpiry
  dsimp only
  split <;> simp

@[simp] theorem queueClaim_pending (stamp : Nat) (s : State) : (queueClaim stamp s).pending = s.pending := by
  unfold queueClaim
  dsimp only
  split <;> simp

@[simp] theorem queueChoice_pending (key stamp : Nat) (s : State) : (queueChoice key stamp s).pending = s.pending := by
  unfold queueChoice
  dsimp only
  split <;> simp

@[simp] theorem queuePass_pending (turn : Nat) (s : State) : (queuePass turn s).pending = s.pending := by
  unfold queuePass
  dsimp only
  split <;> simp

@[simp] theorem judgeBuzz_pending (time : Nat) (s : State) : (judgeBuzz time s).pending = s.pending := by
  unfold judgeBuzz startHold jump
  dsimp only
  (repeat' split) <;> simp

@[simp] theorem judgeKey_pending (key time : Nat) (s : State) : (judgeKey key time s).pending = s.pending := by
  unfold judgeKey jump
  (repeat' split) <;> simp

@[simp] theorem judge_pending (d : DeskInput) (time : Nat) (s : State) : (judge d time s).pending = s.pending := by
  unfold judge
  (repeat' split) <;> simp

@[simp] theorem acceptPress_pending (d : DeskInput) (capture : Nat) (s : State) :
    (acceptPress d capture s).pending = s.pending := by
  unfold acceptPress setInput
  dsimp only
  split <;> simp

@[simp] theorem acceptRelease_pending (d : DeskInput) (s : State) : (acceptRelease d s).pending = s.pending := by
  unfold acceptRelease setInput endHold
  dsimp only
  split <;> simp

@[simp] theorem holdEnd_pending (s : State) : (holdEnd s).pending = s.pending := by
  unfold holdEnd endHold
  split <;> simp

/-! ### Through the command port (R7, R8, R159 to R174) -/

@[simp] theorem storeRead_pending (row : Byte) (s : State) : (storeRead row s).pending = s.pending := by
  unfold storeRead
  (repeat' split) <;> simp

@[simp] theorem storeWrite_pending (row : Byte) (value : Half) (setup : Bool) (s : State) :
    (storeWrite row value setup s).pending = s.pending := by
  unfold storeWrite
  (repeat' split) <;> simp

/-- A command that hands one frame leaves the queue alone if its effect after the hand-over does (R159). -/
theorem handCommand_pending (code : Byte) (c : Content) (body : List Byte) (effect : State → State) (s : State)
    (he : ∀ x, (effect x).pending = x.pending) : (handCommand code c body effect s).pending = s.pending := by
  unfold handCommand
  split <;> simp [he]

@[simp] theorem openRound_pending (block : OpenBlock) (s : State) : (openRound block s).pending = s.pending := by
  unfold openRound
  split
  · exact handCommand_pending _ _ _ _ s fun _ => rfl
  · simp

@[simp] theorem closeRound_pending (s : State) : (closeRound s).pending = s.pending := by
  unfold closeRound
  split
  · exact handCommand_pending _ _ _ _ s fun _ => rfl
  · simp

@[simp] theorem revealRound_pending (key : Byte) (s : State) : (revealRound key s).pending = s.pending := by
  unfold revealRound
  (repeat' split)
  · simp
  · exact handCommand_pending _ _ _ _ s fun _ => rfl
  · simp

@[simp] theorem hostVerdictHanded_pending (a : Answer) (turn : Nat) (s : State) :
    (hostVerdictHanded a turn s).pending = s.pending := by
  cases a <;> rfl

@[simp] theorem hostVerdict_pending (outcome expected : Byte) (s : State) :
    (hostVerdict outcome expected s).pending = s.pending := by
  unfold hostVerdict
  split
  · simp
  · simp
  · exact handCommand_pending _ _ _ _ s (hostVerdictHanded_pending _ _)

@[simp] theorem correct_pending (code : Byte) (team : Nat) (body : List Byte) (s : State) :
    (correct code team body s).pending = s.pending := by
  simp [correct]

@[simp] theorem setTotal_pending (team : Byte) (value : Half) (s : State) : (setTotal team value s).pending = s.pending := by
  unfold setTotal
  dsimp only
  split <;> simp

@[simp] theorem adjust_pending (team : Byte) (delta : Half) (s : State) : (adjust team delta s).pending = s.pending := by
  unfold adjust
  dsimp only
  split <;> simp

@[simp] theorem rollCall_pending (window : Byte) (s : State) : (rollCall window s).pending = s.pending := by
  unfold rollCall
  split
  · simp
  · exact handCommand_pending _ _ _ _ s fun _ => rfl

end Sys2Proof.Machine

namespace Sys2Proof.Machine

/-! ### Every command answers (log 6) -/

/-- The outcome of a command run on `s`: a next state, with the commands that wait in `s` (log 5). -/
def AnswersNext (s : State) (o : Host.Outcome State Fault Refusal) : Prop := ∃ t, o = .next t ∧ t.pending = s.pending

theorem next_answersNext {s t : State} (h : t.pending = s.pending) : AnswersNext s (.next t) := ⟨t, rfl, h⟩

/-- Whether its event occurs or not, a meaning answers a next state. -/
theorem when_answersNext {b : Bool} {f : State → State} {s : State} (hf : (f s).pending = s.pending) :
    AnswersNext s (when b f s) := by
  rcases when_next b f s with hw | hw <;> rw [hw]
  · exact next_answersNext ((refresh_pending _).trans hf)
  · exact next_answersNext rfl

theorem command_answersNext {f : State → State} {s : State} (hf : (f s).pending = s.pending) :
    AnswersNext s (command f s) := when_answersNext hf

theorem consoleCommand_answersNext {code : Byte} {f : State → State} {s : State} (hf : (f s).pending = s.pending) :
    AnswersNext s (consoleCommand code f s) := by
  refine command_answersNext ?_
  split
  · exact hf
  · exact answer_pending _ _ _ s

/-- A taking moves line, presence table and what its owners do; none of them reads or writes the queue of commands (R33). -/
theorem takes_answersNext {f : Frame} {eff : State → State} {s : State} (he : ∀ x, OwnerKeeps .claim x (eff x)) :
    AnswersNext s (takes f eff s) := by
  refine when_answersNext ?_
  unfold taking
  dsimp only
  split <;> simp [(he _).pending]

/-- Every command answers a next state: its row's effect, or the state as it is. -/
theorem exec_answersNext (c : Instr) (s : State) : AnswersNext s (exec c s) := by
  cases c with
  | powerOnReset | resetN => exact next_answersNext rfl
  | restart role1 role0 =>
    change AnswersNext s (execRestart role1 role0 s)
    unfold execRestart
    split <;> exact next_answersNext rfl
  | blinkBaseHalfPeriod => exact next_answersNext (t := refresh (blinkOn s)) (by simp [blinkOn])
  | openTaken desk round block => exact takes_answersNext fun x => openEffect_keeps round block x
  | closeTaken desk round point => exact takes_answersNext fun x => closeEffect_keeps round point x
  | verdictTaken desk round turn team outcome check =>
    exact takes_answersNext fun x => verdictEffect_keeps _ round turn team outcome check x
  | passTaken desk round turn team => exact takes_answersNext fun x => passEffect_keeps round turn team x
  | claimTaken desk round stamp team => exact takes_answersNext fun x => claimEffect_keeps desk round stamp team x
  | choiceTaken desk round stamp key team =>
    exact takes_answersNext fun x => choiceEffect_keeps desk round stamp key team x
  | tallyTaken desk round page a b c d => exact takes_answersNext fun x => tallyEffect_keeps desk page _ x
  | revealTaken desk round key => exact takes_answersNext fun x => revealEffect_keeps round key x (by simp)
  | rollTaken desk round id window => exact takes_answersNext fun x => rollEffect_keeps id window x (by simp)
  | presentTaken desk round role team id flags =>
    exact takes_answersNext fun x => presentEffect_keeps desk role team id flags x
  | helloTaken desk round role team tag => exact takes_answersNext fun x => helloEffect_keeps desk role team tag x (by simp)
  | loadingReadEnd => exact when_answersNext (endLoading_pending s)
  | joiningIdleWaitEnd => exact when_answersNext (endJoinWait_pending s)
  | lineLevelChange change =>
    cases change with
    | toDominant ns => exact when_answersNext (lineDominant_pending ns s)
    | toRecessive ns => exact when_answersNext (lineRecessive_pending ns s)
  | lineIdle => exact when_answersNext (reachIdle_pending s)
  | arbitrationLost cell => exact when_answersNext (f := loseArbitration cell) (by simp [loseArbitration])
  | bitMismatch cell pulse => exact when_answersNext (mismatch_pending cell _ s)
  | frameDiscarded cells ack objection => exact when_answersNext (discard_pending _ _ s)
  | lineFault =>
    unfold exec execLineFault
    refine when_answersNext ?_
    exact faultAtController_pending (faultAtLine s)
  | recoveryQuietEnd => exact when_answersNext (leaveRecovering_pending s)
  | recoveryDeadline => exact when_answersNext (f := recoveryFailed) (by simp [recoveryFailed])
  | armReached => exact when_answersNext (reachArm_pending s)
  | windowEnd => exact when_answersNext (f := endWindow) (by simp [endWindow])
  | roundClockSaturation => exact when_answersNext (saturateClock_pending s)
  | settleDeadline => exact when_answersNext (grant_pending s)
  | settleOut => exact when_answersNext (enterEnded_pending s)
  | answerClockExpiry => exact when_answersNext (answerExpiry_pending s)
  | pressAccepted d => exact when_answersNext (acceptPress_pending d _ s)
  | releaseAccepted d => exact when_answersNext (acceptRelease_pending d s)
  | passHoldEnd => exact when_answersNext (holdEnd_pending s)
  | storeWriteEnd | arbitrationWon | slotsReached | faultMemoryExpiry | startMarkRecognized | objectionRunBegun
  | roundClockTick | answerClockStep | inputFallingEdge | inputRisingEdge | jumpLockEnd | droppedFrameFlashEnd
  | displayUpdateEnd | rollWindowExpiry | transferStart | transferEndNoCommand | unknownCommand =>
    simp only [exec, execStoreWriteEnd, execArbitrationWon, execSlotsReached, execFaultMemoryExpiry,
      execStartMarkRecognized, execObjectionRunBegun, execRoundClockTick, execAnswerClockStep, execInputFallingEdge,
      execInputRisingEdge, execJumpLockEnd, execDroppedFrameFlashEnd, execDisplayUpdateEnd, execRollWindowExpiry,
      execTransferStart, execTransferEndNoCommand, execUnknownCommand]
    exact when_answersNext rfl
  | nop | status | readScores | readClaims | readChoices | readPresence | readRollReport | readFaults | clearFaults
  | readEvents | clearEvents | setEventMask =>
    simp only [exec, execNop, execStatus, execReadScores, execReadClaims, execReadChoices, execReadPresence,
      execReadRollReport, execReadFaults, execClearFaults, execReadEvents, execClearEvents, execSetEventMask]
    exact command_answersNext rfl
  | storeRead row => exact command_answersNext (storeRead_pending row s)
  | storeWrite row value setup => exact command_answersNext (storeWrite_pending row value setup s)
  | openRound block => exact consoleCommand_answersNext (openRound_pending block s)
  | closeRound => exact consoleCommand_answersNext (closeRound_pending s)
  | verdictCommand outcome expected => exact consoleCommand_answersNext (hostVerdict_pending outcome expected s)
  | revealCommand key => exact consoleCommand_answersNext (revealRound_pending key s)
  | setTotal team value => exact consoleCommand_answersNext (setTotal_pending team value s)
  | adjust team delta => exact consoleCommand_answersNext (adjust_pending team delta s)
  | sendTally => exact consoleCommand_answersNext (f := sendTally) (by simp [sendTally])
  | rollCall window => exact consoleCommand_answersNext (rollCall_pending window s)
  | clearRollReport =>
    rw [exec_clearRollReport]
    exact consoleCommand_answersNext rfl

/-- Settles O2: each command's row answers a next state, and no row writes the queue of waiting commands. -/
theorem everyCommandAnswersNext : Obligations.EveryCommandAnswersNext := exec_answersNext

/-! ### One step (log 5, log 10) -/

theorem step_of_front (c : Instr) (rest : List Instr) (s : State) (h : s.pending = c :: rest) :
    step s = exec c (s.withPending rest) := by
  simp only [step, h]

theorem step_of_none (s : State) (h : s.pending = []) : step s = .next (edgeAges s) := by
  simp only [step, h]

/-- Settles O1: the two cases of a step, by the queue. -/
theorem stepRunsFrontCommand : Obligations.StepRunsFrontCommand := ⟨step_of_front, step_of_none⟩

end Sys2Proof.Machine
